-- ==== Sys2Proof/Word.lean ====
section
/-! DEFINITION. The two word types of MINEMU CORE (00_scope R6: registers of 8 bits, addresses of 16) and
the two truncations of the spec's notation (00_scope R8). -/

namespace Sys2Proof

/-- An 8-bit value. -/
abbrev Byte := BitVec 8

/-- A 16-bit value. -/
abbrev Word := BitVec 16

/-- `u8(v)` of 00_scope R8: v mod 256, for a v that may be negative. -/
def u8 (v : Int) : Byte := BitVec.ofInt 8 v

/-- `u16(v)` of 00_scope R8: v mod 65536, for a v that may be negative. -/
def u16 (v : Int) : Word := BitVec.ofInt 16 v

end Sys2Proof
end

