-- ==== Sys2Proof/Config.lean ====
section
/-! DEFINITION. The parameters of an instance (00_scope R6) and the free values. -/

namespace Sys2Proof

/-- The parameter `ARCH` (00_scope R2, R6). -/
inductive Arch where
  /-- The instance is the CHIP-8 core. -/
  | chip8
  /-- The instance is the GB core. -/
  | gb
deriving DecidableEq, Repr

/-- `GB_RESET` (10_state R34, first five rows) as a configuration record with the rule's defaults. -/
structure GbReset where
  mem : List (Nat × Byte) := []
  a : Byte := 0
  f : Byte := 0
  b : Byte := 0
  c : Byte := 0
  d : Byte := 0
  e : Byte := 0
  h : Byte := 0
  l : Byte := 0
  pc : Word := 0x0000
  sp : Word := 0xFFFE
deriving DecidableEq, Repr

/-- A cycle figure. 0 is reserved for a halted session (40_dispatch_tick R122, R125), so no figure is 0. -/
abbrev Figure := { n : Nat // 0 < n }

/-- `GB_CYCLES`: one figure for each entry of the table of 40_dispatch_tick R125, with the rule's defaults. -/
structure GbCycles where
  ldRR : Figure := ⟨4, by decide⟩
  ldRRMem : Figure := ⟨8, by decide⟩
  ldRN : Figure := ⟨8, by decide⟩
  ldMemN : Figure := ⟨12, by decide⟩
  ldPairNn : Figure := ⟨12, by decide⟩
  ldIndirect : Figure := ⟨8, by decide⟩
  ldiLdd : Figure := ⟨8, by decide⟩
  push : Figure := ⟨16, by decide⟩
  pop : Figure := ⟨12, by decide⟩
  aluR : Figure := ⟨4, by decide⟩
  aluMem : Figure := ⟨8, by decide⟩
  aluN : Figure := ⟨8, by decide⟩
  addHl : Figure := ⟨8, by decide⟩
  jp : Figure := ⟨16, by decide⟩
  jpTaken : Figure := ⟨16, by decide⟩
  jpNotTaken : Figure := ⟨12, by decide⟩
  jr : Figure := ⟨12, by decide⟩
  jrTaken : Figure := ⟨12, by decide⟩
  jrNotTaken : Figure := ⟨8, by decide⟩
  call : Figure := ⟨24, by decide⟩
  ret : Figure := ⟨16, by decide⟩
  diEi : Figure := ⟨4, by decide⟩
  bit : Figure := ⟨8, by decide⟩
  bitMem : Figure := ⟨12, by decide⟩
  resSet : Figure := ⟨8, by decide⟩
  resSetMem : Figure := ⟨16, by decide⟩
deriving DecidableEq, Repr

/-- The open parameters of a GB instance (00_scope R6): `GB_RESET` and `GB_CYCLES`. -/
structure GbParams where
  reset : GbReset := {}
  cycles : GbCycles := {}
deriving DecidableEq, Repr

namespace Config

/-- The architecture that `State.reset` names. DESIGN CHOICE (log 1). -/
def arch : Arch := .chip8

/-- `C8_MEM_SIZE` (R6). -/
def c8MemSize : Nat := 4096

/-- `GB_MEM_SIZE` (R6). -/
def gbMemSize : Nat := 65536

/-- `C8_LOAD_BASE` (R6), also the CHIP-8 reset `PC`. -/
def c8LoadBase : Nat := 0x200

/-- `GB_LOAD_BASE` (R6). -/
def gbLoadBase : Nat := 0x0000

/-- `C8_FONT_BASE` (R6). -/
def c8FontBase : Nat := 0x000

/-- `C8_KEY_NONE` (R6). -/
def keyNone : Byte := 0xFF

/-- `LAST_INVALID` (R6, 10_state R14). -/
def lastInvalid : Word := 0xFFFF

/-- The parameters that `State.reset` carries: the defaults of 10_state R34 and 40_dispatch_tick R125 (logs 15,
24). -/
def gbParams : GbParams := {}

/-- `RND` (R6, 42_chip8_alu R173): the k-th byte drawn. A FREE VALUE: nothing constrains it (log 4). -/
opaque draw : Nat → Byte

/-- Whether the k-th `Initialize` fails to allocate (70_reset_and_hazards R310). A FREE VALUE (log 5). -/
opaque allocationFails : Nat → Bool

end Config

end Sys2Proof
end

