-- ==== Sys2Proof/Syntax.lean ====
section
/-! DEFINITION. The instructions: one constructor for each of the 78 entries of the opcode tables
(30_encoding R83, R90, R91), with the operands of its format (R81, R82, R86, R95). CHIP-8 constructors begin
`c8`, GB constructors `gb`. -/

namespace Sys2Proof

/-- The 3-bit operand index `R[i]` of 30_encoding R87. -/
inductive Reg8 where
  | b | c | d | e | h | l
  /-- Index 6: the memory byte at address HL. -/
  | hlMem
  | a
deriving DecidableEq, Repr

/-- The 2-bit pair index `RP[i]` of R87 (`LD rr,nn`, `ADD HL,rr`). -/
inductive Pair where
  | bc | de | hl | sp
deriving DecidableEq, Repr

/-- The 2-bit pair index `RP2[i]` of R87 (`PUSH`, `POP`). -/
inductive StackPair where
  | bc | de | hl | af
deriving DecidableEq, Repr

/-- The condition codes of R88. -/
inductive Cond where
  | nz | z | nc | c
deriving DecidableEq, Repr

/-- One constructor per row of the opcode tables. -/
inductive Instr where
  -- CHIP-8 (R83), in the table's order
  | c8Cls
  | c8Ret
  | c8Jp (nnn : BitVec 12)
  | c8Call (nnn : BitVec 12)
  | c8SeByte (x : BitVec 4) (kk : Byte)
  | c8SneByte (x : BitVec 4) (kk : Byte)
  | c8SeReg (x y : BitVec 4)
  | c8LdByte (x : BitVec 4) (kk : Byte)
  | c8AddByte (x : BitVec 4) (kk : Byte)
  | c8LdReg (x y : BitVec 4)
  | c8Or (x y : BitVec 4)
  | c8And (x y : BitVec 4)
  | c8Xor (x y : BitVec 4)
  | c8Add (x y : BitVec 4)
  | c8Sub (x y : BitVec 4)
  /-- `y` is decoded and ignored (R169). -/
  | c8Shr (x y : BitVec 4)
  | c8Subn (x y : BitVec 4)
  /-- `y` is decoded and ignored (R171). -/
  | c8Shl (x y : BitVec 4)
  | c8SneReg (x y : BitVec 4)
  | c8LdI (nnn : BitVec 12)
  | c8JpV0 (nnn : BitVec 12)
  | c8Rnd (x : BitVec 4) (kk : Byte)
  | c8Drw (x y n : BitVec 4)
  | c8Skp (x : BitVec 4)
  | c8Sknp (x : BitVec 4)
  | c8LdVxDt (x : BitVec 4)
  | c8LdVxK (x : BitVec 4)
  | c8LdDtVx (x : BitVec 4)
  | c8LdStVx (x : BitVec 4)
  | c8AddI (x : BitVec 4)
  | c8LdF (x : BitVec 4)
  | c8LdB (x : BitVec 4)
  | c8StoreRegs (x : BitVec 4)
  | c8LoadRegs (x : BitVec 4)
  -- GB main table (R90), in the table's order
  | gbStop
  | gbHalt
  | gbDi
  | gbEi
  /-- Written for the sub-opcodes that match no CB row; the others are `gbBit`, `gbRes`, `gbSet` (log 9). -/
  | gbPrefixCb (sub : Byte)
  | gbJp (nn : Word)
  | gbJr (e : Byte)
  | gbCall (nn : Word)
  | gbRet
  | gbLdBcA
  | gbLdDeA
  | gbLdiHlA
  | gbLddHlA
  | gbLdABc
  | gbLdADe
  | gbLdiAHl
  | gbLddAHl
  | gbAddN (n : Byte)
  | gbAdcN (n : Byte)
  | gbSubN (n : Byte)
  | gbSbcN (n : Byte)
  | gbAndN (n : Byte)
  | gbXorN (n : Byte)
  | gbOrN (n : Byte)
  | gbCpN (n : Byte)
  | gbJpCc (cc : Cond) (nn : Word)
  | gbJrCc (cc : Cond) (e : Byte)
  | gbLdPairNn (pp : Pair) (nn : Word)
  | gbAddHl (pp : Pair)
  | gbPush (pp : StackPair)
  | gbPop (pp : StackPair)
  | gbLdRN (dst : Reg8) (n : Byte)
  | gbAddR (src : Reg8)
  | gbAdcR (src : Reg8)
  | gbSubR (src : Reg8)
  | gbSbcR (src : Reg8)
  | gbAndR (src : Reg8)
  | gbXorR (src : Reg8)
  | gbOrR (src : Reg8)
  | gbCpR (src : Reg8)
  | gbLdRR (dst src : Reg8)
  -- GB CB table (R91)
  | gbBit (b : BitVec 3) (src : Reg8)
  | gbRes (b : BitVec 3) (src : Reg8)
  | gbSet (b : BitVec 3) (src : Reg8)
deriving DecidableEq, Repr

end Sys2Proof
end

