-- ==== Sys2Proof/WellFormed.lean ====
section
/-! DEFINITION. Which terms of `Instr` are instructions of the tables. Every operand type holds exactly the
values of its field, so two checks remain, both from the order of lookup (30_encoding R90, 47_gb_cb R270). -/

namespace Sys2Proof

/-- `LD (HL),(HL)` is no instruction: its byte 0x76 is `HALT` (R90, 44_gb_load R200). A CB sub-opcode of
0x40 or more matches a row of the CB table (R91) and is written with that row's constructor. -/
def Instr.wellFormed : Instr → Bool
  | .gbLdRR dst src => !(dst == .hlMem && src == .hlMem)
  | .gbPrefixCb sub => decide (sub < 0x40)
  | _ => true

end Sys2Proof
end

