-- ==== Sys2Proof/Decode.lean ====
section
/-! DEFINITION. The opcode tables and the fetcher (30_encoding R83, R90, R91; 40_dispatch_tick R110 to R116),
the decoder, and after it the encoder. -/

namespace Sys2Proof

/-- A table entry: mask, match value and handler tag in one record (40_dispatch_tick R111). -/
structure Entry (κ : Type) where
  mask : Word
  mtch : Word
  handler : κ
deriving DecidableEq, Repr

/-- The handler tag of a CHIP-8 table entry (40_dispatch_tick R111: a sum type over instruction kinds). -/
inductive C8Op where
  | cls | ret | jp | call | seByte | sneByte | seReg | ldByte | addByte | ldReg
  | orr | andd | xor | add | sub | shr | subn | shl | sneReg | ldI
  | jpV0 | rnd | drw | skp | sknp | ldVxDt | ldVxK | ldDtVx | ldStVx | addI
  | ldF | ldB | storeRegs | loadRegs
deriving DecidableEq, Repr

/-- The handler tag of a GB main-table entry (R111). -/
inductive GbOp where
  | stop | halt | di | ei | prefixCb | jp | jr | call | ret | ldBcA
  | ldDeA | ldiHlA | lddHlA | ldABc | ldADe | ldiAHl | lddAHl | addN | adcN | subN
  | sbcN | andN | xorN | orN | cpN | jpCc | jrCc | ldPairNn | addHl | push
  | pop | ldRN | addR | adcR | subR | sbcR | andR | xorR | orR | cpR
  | ldRR
deriving DecidableEq, Repr

/-- The handler tag of a GB CB-table entry (R111). -/
inductive CbOp where
  | bit | res | set
deriving DecidableEq, Repr

/-- Why bytes are no instruction. -/
inductive Reject where
  /-- No table entry matches the raw opcode (R112, R115). -/
  | notFound (raw : Word)
  /-- The list ends before the instruction does. Fetch from memory never gives such a list. -/
  | truncated
deriving DecidableEq, Repr

/-! ## The tables -/

/-- The CHIP-8 opcode table in insertion order (30_encoding R83). -/
def c8Table : List (Entry C8Op) := [
  ⟨0xFFFF, 0x00E0, .cls⟩,
  ⟨0xFFFF, 0x00EE, .ret⟩,
  ⟨0xF000, 0x1000, .jp⟩,
  ⟨0xF000, 0x2000, .call⟩,
  ⟨0xF000, 0x3000, .seByte⟩,
  ⟨0xF000, 0x4000, .sneByte⟩,
  ⟨0xF00F, 0x5000, .seReg⟩,
  ⟨0xF000, 0x6000, .ldByte⟩,
  ⟨0xF000, 0x7000, .addByte⟩,
  ⟨0xF00F, 0x8000, .ldReg⟩,
  ⟨0xF00F, 0x8001, .orr⟩,
  ⟨0xF00F, 0x8002, .andd⟩,
  ⟨0xF00F, 0x8003, .xor⟩,
  ⟨0xF00F, 0x8004, .add⟩,
  ⟨0xF00F, 0x8005, .sub⟩,
  ⟨0xF00F, 0x8006, .shr⟩,
  ⟨0xF00F, 0x8007, .subn⟩,
  ⟨0xF00F, 0x800E, .shl⟩,
  ⟨0xF00F, 0x9000, .sneReg⟩,
  ⟨0xF000, 0xA000, .ldI⟩,
  ⟨0xF000, 0xB000, .jpV0⟩,
  ⟨0xF000, 0xC000, .rnd⟩,
  ⟨0xF000, 0xD000, .drw⟩,
  ⟨0xF0FF, 0xE09E, .skp⟩,
  ⟨0xF0FF, 0xE0A1, .sknp⟩,
  ⟨0xF0FF, 0xF007, .ldVxDt⟩,
  ⟨0xF0FF, 0xF00A, .ldVxK⟩,
  ⟨0xF0FF, 0xF015, .ldDtVx⟩,
  ⟨0xF0FF, 0xF018, .ldStVx⟩,
  ⟨0xF0FF, 0xF01E, .addI⟩,
  ⟨0xF0FF, 0xF029, .ldF⟩,
  ⟨0xF0FF, 0xF033, .ldB⟩,
  ⟨0xF0FF, 0xF055, .storeRegs⟩,
  ⟨0xF0FF, 0xF065, .loadRegs⟩]

/-- The GB main opcode table in insertion order (30_encoding R90): `HALT` stands before `LD r,r'`. -/
def gbTable : List (Entry GbOp) := [
  ⟨0x00FF, 0x0010, .stop⟩,
  ⟨0x00FF, 0x0076, .halt⟩,
  ⟨0x00FF, 0x00F3, .di⟩,
  ⟨0x00FF, 0x00FB, .ei⟩,
  ⟨0x00FF, 0x00CB, .prefixCb⟩,
  ⟨0x00FF, 0x00C3, .jp⟩,
  ⟨0x00FF, 0x0018, .jr⟩,
  ⟨0x00FF, 0x00CD, .call⟩,
  ⟨0x00FF, 0x00C9, .ret⟩,
  ⟨0x00FF, 0x0002, .ldBcA⟩,
  ⟨0x00FF, 0x0012, .ldDeA⟩,
  ⟨0x00FF, 0x0022, .ldiHlA⟩,
  ⟨0x00FF, 0x0032, .lddHlA⟩,
  ⟨0x00FF, 0x000A, .ldABc⟩,
  ⟨0x00FF, 0x001A, .ldADe⟩,
  ⟨0x00FF, 0x002A, .ldiAHl⟩,
  ⟨0x00FF, 0x003A, .lddAHl⟩,
  ⟨0x00FF, 0x00C6, .addN⟩,
  ⟨0x00FF, 0x00CE, .adcN⟩,
  ⟨0x00FF, 0x00D6, .subN⟩,
  ⟨0x00FF, 0x00DE, .sbcN⟩,
  ⟨0x00FF, 0x00E6, .andN⟩,
  ⟨0x00FF, 0x00EE, .xorN⟩,
  ⟨0x00FF, 0x00F6, .orN⟩,
  ⟨0x00FF, 0x00FE, .cpN⟩,
  ⟨0x00E7, 0x00C2, .jpCc⟩,
  ⟨0x00E7, 0x0020, .jrCc⟩,
  ⟨0x00CF, 0x0001, .ldPairNn⟩,
  ⟨0x00CF, 0x0009, .addHl⟩,
  ⟨0x00CF, 0x00C5, .push⟩,
  ⟨0x00CF, 0x00C1, .pop⟩,
  ⟨0x00C7, 0x0006, .ldRN⟩,
  ⟨0x00F8, 0x0080, .addR⟩,
  ⟨0x00F8, 0x0088, .adcR⟩,
  ⟨0x00F8, 0x0090, .subR⟩,
  ⟨0x00F8, 0x0098, .sbcR⟩,
  ⟨0x00F8, 0x00A0, .andR⟩,
  ⟨0x00F8, 0x00A8, .xorR⟩,
  ⟨0x00F8, 0x00B0, .orR⟩,
  ⟨0x00F8, 0x00B8, .cpR⟩,
  ⟨0x00C0, 0x0040, .ldRR⟩]

/-- The GB CB table (30_encoding R91). -/
def cbTable : List (Entry CbOp) := [
  ⟨0x00C0, 0x0040, .bit⟩,
  ⟨0x00C0, 0x0080, .res⟩,
  ⟨0x00C0, 0x00C0, .set⟩]

/-- `Fetch(op)`: the first entry in insertion order whose pattern matches (R112). -/
def fetch {κ : Type} (table : List (Entry κ)) (raw : Word) : Option κ :=
  (table.find? fun e => raw &&& e.mask == e.mtch).map Entry.handler

/-- The table as it stands: empty before the first `LoadProgram`, else the built list (10_state R11). -/
def tableNow {κ : Type} (built : Bool) (table : List (Entry κ)) : List (Entry κ) :=
  if built then table else []

/-! ## Operand fields (R81, R86) -/

def fieldX (op : Word) : BitVec 4 := op.extractLsb' 8 4
def fieldY (op : Word) : BitVec 4 := op.extractLsb' 4 4
def fieldN (op : Word) : BitVec 4 := op.extractLsb' 0 4
def fieldNNN (op : Word) : BitVec 12 := op.extractLsb' 0 12
def fieldKK (op : Word) : Byte := op.extractLsb' 0 8

/-- `d = op[5:3]`; in a CB sub-opcode the same bits are the bit number `b`. -/
def fieldD (op : Byte) : BitVec 3 := op.extractLsb' 3 3
def fieldS (op : Byte) : BitVec 3 := op.extractLsb' 0 3
def fieldPP (op : Byte) : BitVec 2 := op.extractLsb' 4 2
def fieldCC (op : Byte) : BitVec 2 := op.extractLsb' 3 2

/-! ## Index maps (R87, R88) -/

/-- `R[i]` of R87. -/
def reg8Of (i : BitVec 3) : Reg8 :=
  match i.toNat with
  | 0 => .b | 1 => .c | 2 => .d | 3 => .e | 4 => .h | 5 => .l | 6 => .hlMem | _ => .a

def reg8Index (r : Reg8) : BitVec 3 :=
  match r with
  | .b => 0 | .c => 1 | .d => 2 | .e => 3 | .h => 4 | .l => 5 | .hlMem => 6 | .a => 7

/-- `RP[i]` of R87. -/
def pairOf (i : BitVec 2) : Pair :=
  match i.toNat with
  | 0 => .bc | 1 => .de | 2 => .hl | _ => .sp

def pairIndex (p : Pair) : BitVec 2 :=
  match p with
  | .bc => 0 | .de => 1 | .hl => 2 | .sp => 3

/-- `RP2[i]` of R87. -/
def stackPairOf (i : BitVec 2) : StackPair :=
  match i.toNat with
  | 0 => .bc | 1 => .de | 2 => .hl | _ => .af

def stackPairIndex (p : StackPair) : BitVec 2 :=
  match p with
  | .bc => 0 | .de => 1 | .hl => 2 | .af => 3

/-- The condition numbers of R88. -/
def condOf (i : BitVec 2) : Cond :=
  match i.toNat with
  | 0 => .nz | 1 => .z | 2 => .nc | _ => .c

def condIndex (cc : Cond) : BitVec 2 :=
  match cc with
  | .nz => 0 | .z => 1 | .nc => 2 | .c => 3

/-! ## CHIP-8 decoding -/

/-- The instruction that a CHIP-8 table entry and its raw opcode give (40_dispatch_tick R116). -/
def c8Assemble (k : C8Op) (op : Word) : Instr :=
  match k with
  | .cls => .c8Cls
  | .ret => .c8Ret
  | .jp => .c8Jp (fieldNNN op)
  | .call => .c8Call (fieldNNN op)
  | .seByte => .c8SeByte (fieldX op) (fieldKK op)
  | .sneByte => .c8SneByte (fieldX op) (fieldKK op)
  | .seReg => .c8SeReg (fieldX op) (fieldY op)
  | .ldByte => .c8LdByte (fieldX op) (fieldKK op)
  | .addByte => .c8AddByte (fieldX op) (fieldKK op)
  | .ldReg => .c8LdReg (fieldX op) (fieldY op)
  | .orr => .c8Or (fieldX op) (fieldY op)
  | .andd => .c8And (fieldX op) (fieldY op)
  | .xor => .c8Xor (fieldX op) (fieldY op)
  | .add => .c8Add (fieldX op) (fieldY op)
  | .sub => .c8Sub (fieldX op) (fieldY op)
  | .shr => .c8Shr (fieldX op) (fieldY op)
  | .subn => .c8Subn (fieldX op) (fieldY op)
  | .shl => .c8Shl (fieldX op) (fieldY op)
  | .sneReg => .c8SneReg (fieldX op) (fieldY op)
  | .ldI => .c8LdI (fieldNNN op)
  | .jpV0 => .c8JpV0 (fieldNNN op)
  | .rnd => .c8Rnd (fieldX op) (fieldKK op)
  | .drw => .c8Drw (fieldX op) (fieldY op) (fieldN op)
  | .skp => .c8Skp (fieldX op)
  | .sknp => .c8Sknp (fieldX op)
  | .ldVxDt => .c8LdVxDt (fieldX op)
  | .ldVxK => .c8LdVxK (fieldX op)
  | .ldDtVx => .c8LdDtVx (fieldX op)
  | .ldStVx => .c8LdStVx (fieldX op)
  | .addI => .c8AddI (fieldX op)
  | .ldF => .c8LdF (fieldX op)
  | .ldB => .c8LdB (fieldX op)
  | .storeRegs => .c8StoreRegs (fieldX op)
  | .loadRegs => .c8LoadRegs (fieldX op)

/-- Lookup and decode of a raw CHIP-8 opcode in a table (R112, R116). -/
def decodeC8 (table : List (Entry C8Op)) (op : Word) : Except Reject Instr :=
  match fetch table op with
  | some k => .ok (c8Assemble k op)
  | none => .error (.notFound op)

/-- Two bytes, most significant first (30_encoding R80, 20_memory R52). -/
def beWord (hi lo : Byte) : Word := hi ++ lo

/-- Two bytes, least significant first (20_memory R57, 30_encoding R89). -/
def leWord (lo hi : Byte) : Word := hi ++ lo

/-! ## GB decoding -/

/-- One operand byte (R89 `Imm8`). -/
def takeByte (rest : List Byte) (f : Byte → Instr) : Except Reject (Instr × List Byte) :=
  match rest with
  | n :: rest => .ok (f n, rest)
  | [] => .error .truncated

/-- Two operand bytes, low byte first (R89 `Imm16`). -/
def takeWord (rest : List Byte) (f : Word → Instr) : Except Reject (Instr × List Byte) :=
  match rest with
  | lo :: hi :: rest => .ok (f (leWord lo hi), rest)
  | _ => .error .truncated

/-- The instruction of a CB sub-opcode (47_gb_cb R270, 30_encoding R91): a sub-opcode that matches no row
stays with its prefix (log 9). -/
def decodeCb (sub : Byte) : Instr :=
  match fetch cbTable (sub.setWidth 16) with
  | some .bit => .gbBit (fieldD sub) (reg8Of (fieldS sub))
  | some .res => .gbRes (fieldD sub) (reg8Of (fieldS sub))
  | some .set => .gbSet (fieldD sub) (reg8Of (fieldS sub))
  | none => .gbPrefixCb sub

/-- The instruction that a GB table entry, its opcode byte and the bytes after it give (R85, R86, R95). -/
def gbAssemble (k : GbOp) (op : Byte) (rest : List Byte) : Except Reject (Instr × List Byte) :=
  match k with
  | .stop => .ok (.gbStop, rest)
  | .halt => .ok (.gbHalt, rest)
  | .di => .ok (.gbDi, rest)
  | .ei => .ok (.gbEi, rest)
  | .prefixCb => takeByte rest decodeCb
  | .jp => takeWord rest .gbJp
  | .jr => takeByte rest .gbJr
  | .call => takeWord rest .gbCall
  | .ret => .ok (.gbRet, rest)
  | .ldBcA => .ok (.gbLdBcA, rest)
  | .ldDeA => .ok (.gbLdDeA, rest)
  | .ldiHlA => .ok (.gbLdiHlA, rest)
  | .lddHlA => .ok (.gbLddHlA, rest)
  | .ldABc => .ok (.gbLdABc, rest)
  | .ldADe => .ok (.gbLdADe, rest)
  | .ldiAHl => .ok (.gbLdiAHl, rest)
  | .lddAHl => .ok (.gbLddAHl, rest)
  | .addN => takeByte rest .gbAddN
  | .adcN => takeByte rest .gbAdcN
  | .subN => takeByte rest .gbSubN
  | .sbcN => takeByte rest .gbSbcN
  | .andN => takeByte rest .gbAndN
  | .xorN => takeByte rest .gbXorN
  | .orN => takeByte rest .gbOrN
  | .cpN => takeByte rest .gbCpN
  | .jpCc => takeWord rest (.gbJpCc (condOf (fieldCC op)))
  | .jrCc => takeByte rest (.gbJrCc (condOf (fieldCC op)))
  | .ldPairNn => takeWord rest (.gbLdPairNn (pairOf (fieldPP op)))
  | .addHl => .ok (.gbAddHl (pairOf (fieldPP op)), rest)
  | .push => .ok (.gbPush (stackPairOf (fieldPP op)), rest)
  | .pop => .ok (.gbPop (stackPairOf (fieldPP op)), rest)
  | .ldRN => takeByte rest (.gbLdRN (reg8Of (fieldD op)))
  | .addR => .ok (.gbAddR (reg8Of (fieldS op)), rest)
  | .adcR => .ok (.gbAdcR (reg8Of (fieldS op)), rest)
  | .subR => .ok (.gbSubR (reg8Of (fieldS op)), rest)
  | .sbcR => .ok (.gbSbcR (reg8Of (fieldS op)), rest)
  | .andR => .ok (.gbAndR (reg8Of (fieldS op)), rest)
  | .xorR => .ok (.gbXorR (reg8Of (fieldS op)), rest)
  | .orR => .ok (.gbOrR (reg8Of (fieldS op)), rest)
  | .cpR => .ok (.gbCpR (reg8Of (fieldS op)), rest)
  | .ldRR => .ok (.gbLdRR (reg8Of (fieldD op)) (reg8Of (fieldS op)), rest)

/-- Lookup and decode of the GB instruction at the head of a list of bytes (R85, R112). -/
def decodeGb (table : List (Entry GbOp)) (bytes : List Byte) : Except Reject (Instr × List Byte) :=
  match bytes with
  | [] => .error .truncated
  | op :: rest =>
    match fetch table (op.setWidth 16) with
    | some k => gbAssemble k op rest
    | none => .error (.notFound (op.setWidth 16))

/-- The instruction at the head of a list of bytes, and the bytes after it, with the table built. -/
def decode (arch : Arch) (bytes : List Byte) : Except Reject (Instr × List Byte) :=
  match arch with
  | .gb => decodeGb gbTable bytes
  | .chip8 =>
    match bytes with
    | hi :: lo :: rest => (decodeC8 c8Table (beWord hi lo)).map fun i => (i, rest)
    | _ => .error .truncated

/-- The bytes of a GB instruction whose bits are `w`, first byte in bits 7:0. -/
def gbBytesOf (w : Nat) : List Byte :=
  [BitVec.ofNat 8 w, BitVec.ofNat 8 (w / 256), BitVec.ofNat 8 (w / 65536)]

/-- The bytes of a CHIP-8 instruction whose raw opcode is `w`, in memory order (R80). -/
def c8BytesOf (w : Nat) : List Byte :=
  [BitVec.ofNat 8 (w / 256), BitVec.ofNat 8 w]

/-- Which core a row of the opcode table belongs to, by the bits it gives the row: 16 for CHIP-8, whole
bytes of another number for GB (log 13). -/
def archOfBits (nbits : Nat) : Arch := if nbits == 16 then .chip8 else .gb

/-- Whether a word can only be a row of the CB table, whose bits are those of the sub-opcode (R91): it is
eight bits, matches a row there and matches none of the main table (log 13). -/
def isSubOpcode (nbits w : Nat) : Bool :=
  nbits == 8 && (fetch gbTable (BitVec.ofNat 16 w)).isNone && (fetch cbTable (BitVec.ofNat 16 w)).isSome

/-- The bytes of a table word in memory order, every bit at or above `nbits` zero. -/
def tableBytes (nbits w : Nat) : List Byte :=
  match archOfBits nbits with
  | .chip8 => c8BytesOf (w % 2 ^ nbits)
  | .gb =>
    if isSubOpcode nbits (w % 2 ^ nbits) then 0xCB :: gbBytesOf (w % 2 ^ nbits)
    else gbBytesOf (w % 2 ^ nbits)

/-- The instruction the decoder reads from a table row's bits, numbered as the table numbers them. -/
def decodeTableWord (nbits w : Nat) : Option Instr :=
  match decode (archOfBits nbits) (tableBytes nbits w) with
  | .ok (i, _) => some i
  | .error _ => none

/-! ## Encoding -/

/-- The bytes of a raw CHIP-8 opcode, most significant first (R80). -/
def beBytes (w : Word) : List Byte := [w.extractLsb' 8 8, w.extractLsb' 0 8]

/-- The bytes of a 16-bit operand, least significant first (R57, R89). -/
def leBytes (w : Word) : List Byte := [w.extractLsb' 0 8, w.extractLsb' 8 8]

/-- Format XS of R82. -/
def wordXS (hi : BitVec 4) (x : BitVec 4) (lo : Byte) : Word := hi ++ x ++ lo

/-- Format XY of R82. -/
def wordXY (hi : BitVec 4) (x y : BitVec 4) (lo : BitVec 4) : Word := hi ++ x ++ y ++ lo

/-- Format NNN of R82. -/
def wordNNN (hi : BitVec 4) (nnn : BitVec 12) : Word := hi ++ nnn

/-- A byte of fields 2, 3 and 3 bits wide (R86, R91). -/
def byteDS (hi : BitVec 2) (d s : BitVec 3) : Byte := hi ++ d ++ s

/-- A byte of fields 2, 2 and 4 bits wide (R86, R95 G_PP). -/
def bytePP (hi : BitVec 2) (pp : BitVec 2) (lo : BitVec 4) : Byte := hi ++ pp ++ lo

/-- A byte of fields 3, 2 and 3 bits wide (R86, R95 G_CC). -/
def byteCC (hi : BitVec 3) (cc : BitVec 2) (lo : BitVec 3) : Byte := hi ++ cc ++ lo

/-- Which core an instruction belongs to. -/
def archOf (i : Instr) : Arch :=
  match i with
  | .c8Cls => .chip8
  | .c8Ret => .chip8
  | .c8Jp _ => .chip8
  | .c8Call _ => .chip8
  | .c8SeByte _ _ => .chip8
  | .c8SneByte _ _ => .chip8
  | .c8SeReg _ _ => .chip8
  | .c8LdByte _ _ => .chip8
  | .c8AddByte _ _ => .chip8
  | .c8LdReg _ _ => .chip8
  | .c8Or _ _ => .chip8
  | .c8And _ _ => .chip8
  | .c8Xor _ _ => .chip8
  | .c8Add _ _ => .chip8
  | .c8Sub _ _ => .chip8
  | .c8Shr _ _ => .chip8
  | .c8Subn _ _ => .chip8
  | .c8Shl _ _ => .chip8
  | .c8SneReg _ _ => .chip8
  | .c8LdI _ => .chip8
  | .c8JpV0 _ => .chip8
  | .c8Rnd _ _ => .chip8
  | .c8Drw _ _ _ => .chip8
  | .c8Skp _ => .chip8
  | .c8Sknp _ => .chip8
  | .c8LdVxDt _ => .chip8
  | .c8LdVxK _ => .chip8
  | .c8LdDtVx _ => .chip8
  | .c8LdStVx _ => .chip8
  | .c8AddI _ => .chip8
  | .c8LdF _ => .chip8
  | .c8LdB _ => .chip8
  | .c8StoreRegs _ => .chip8
  | .c8LoadRegs _ => .chip8
  | .gbStop => .gb
  | .gbHalt => .gb
  | .gbDi => .gb
  | .gbEi => .gb
  | .gbPrefixCb _ => .gb
  | .gbJp _ => .gb
  | .gbJr _ => .gb
  | .gbCall _ => .gb
  | .gbRet => .gb
  | .gbLdBcA => .gb
  | .gbLdDeA => .gb
  | .gbLdiHlA => .gb
  | .gbLddHlA => .gb
  | .gbLdABc => .gb
  | .gbLdADe => .gb
  | .gbLdiAHl => .gb
  | .gbLddAHl => .gb
  | .gbAddN _ => .gb
  | .gbAdcN _ => .gb
  | .gbSubN _ => .gb
  | .gbSbcN _ => .gb
  | .gbAndN _ => .gb
  | .gbXorN _ => .gb
  | .gbOrN _ => .gb
  | .gbCpN _ => .gb
  | .gbJpCc _ _ => .gb
  | .gbJrCc _ _ => .gb
  | .gbLdPairNn _ _ => .gb
  | .gbAddHl _ => .gb
  | .gbPush _ => .gb
  | .gbPop _ => .gb
  | .gbLdRN _ _ => .gb
  | .gbAddR _ => .gb
  | .gbAdcR _ => .gb
  | .gbSubR _ => .gb
  | .gbSbcR _ => .gb
  | .gbAndR _ => .gb
  | .gbXorR _ => .gb
  | .gbOrR _ => .gb
  | .gbCpR _ => .gb
  | .gbLdRR _ _ => .gb
  | .gbBit _ _ => .gb
  | .gbRes _ _ => .gb
  | .gbSet _ _ => .gb

/-- The bytes of an instruction in memory order (30_encoding R80 to R83, R85 to R91). -/
def encode (i : Instr) : List Byte :=
  match i with
  | .c8Cls => beBytes 0xE0#16
  | .c8Ret => beBytes 0xEE#16
  | .c8Jp nnn => beBytes (wordNNN 0x1#4 nnn)
  | .c8Call nnn => beBytes (wordNNN 0x2#4 nnn)
  | .c8SeByte x kk => beBytes (wordXS 0x3#4 x kk)
  | .c8SneByte x kk => beBytes (wordXS 0x4#4 x kk)
  | .c8SeReg x y => beBytes (wordXY 0x5#4 x y 0x0#4)
  | .c8LdByte x kk => beBytes (wordXS 0x6#4 x kk)
  | .c8AddByte x kk => beBytes (wordXS 0x7#4 x kk)
  | .c8LdReg x y => beBytes (wordXY 0x8#4 x y 0x0#4)
  | .c8Or x y => beBytes (wordXY 0x8#4 x y 0x1#4)
  | .c8And x y => beBytes (wordXY 0x8#4 x y 0x2#4)
  | .c8Xor x y => beBytes (wordXY 0x8#4 x y 0x3#4)
  | .c8Add x y => beBytes (wordXY 0x8#4 x y 0x4#4)
  | .c8Sub x y => beBytes (wordXY 0x8#4 x y 0x5#4)
  | .c8Shr x y => beBytes (wordXY 0x8#4 x y 0x6#4)
  | .c8Subn x y => beBytes (wordXY 0x8#4 x y 0x7#4)
  | .c8Shl x y => beBytes (wordXY 0x8#4 x y 0xE#4)
  | .c8SneReg x y => beBytes (wordXY 0x9#4 x y 0x0#4)
  | .c8LdI nnn => beBytes (wordNNN 0xA#4 nnn)
  | .c8JpV0 nnn => beBytes (wordNNN 0xB#4 nnn)
  | .c8Rnd x kk => beBytes (wordXS 0xC#4 x kk)
  | .c8Drw x y n => beBytes (wordXY 0xD#4 x y n)
  | .c8Skp x => beBytes (wordXS 0xE#4 x 0x9E#8)
  | .c8Sknp x => beBytes (wordXS 0xE#4 x 0xA1#8)
  | .c8LdVxDt x => beBytes (wordXS 0xF#4 x 0x7#8)
  | .c8LdVxK x => beBytes (wordXS 0xF#4 x 0xA#8)
  | .c8LdDtVx x => beBytes (wordXS 0xF#4 x 0x15#8)
  | .c8LdStVx x => beBytes (wordXS 0xF#4 x 0x18#8)
  | .c8AddI x => beBytes (wordXS 0xF#4 x 0x1E#8)
  | .c8LdF x => beBytes (wordXS 0xF#4 x 0x29#8)
  | .c8LdB x => beBytes (wordXS 0xF#4 x 0x33#8)
  | .c8StoreRegs x => beBytes (wordXS 0xF#4 x 0x55#8)
  | .c8LoadRegs x => beBytes (wordXS 0xF#4 x 0x65#8)
  | .gbStop => [0x10#8]
  | .gbHalt => [0x76#8]
  | .gbDi => [0xF3#8]
  | .gbEi => [0xFB#8]
  | .gbPrefixCb sub => [0xCB#8, sub]
  | .gbJp nn => 0xC3#8 :: leBytes nn
  | .gbJr e => [0x18#8, e]
  | .gbCall nn => 0xCD#8 :: leBytes nn
  | .gbRet => [0xC9#8]
  | .gbLdBcA => [0x2#8]
  | .gbLdDeA => [0x12#8]
  | .gbLdiHlA => [0x22#8]
  | .gbLddHlA => [0x32#8]
  | .gbLdABc => [0xA#8]
  | .gbLdADe => [0x1A#8]
  | .gbLdiAHl => [0x2A#8]
  | .gbLddAHl => [0x3A#8]
  | .gbAddN n => [0xC6#8, n]
  | .gbAdcN n => [0xCE#8, n]
  | .gbSubN n => [0xD6#8, n]
  | .gbSbcN n => [0xDE#8, n]
  | .gbAndN n => [0xE6#8, n]
  | .gbXorN n => [0xEE#8, n]
  | .gbOrN n => [0xF6#8, n]
  | .gbCpN n => [0xFE#8, n]
  | .gbJpCc cc nn => byteCC 0x6#3 (condIndex cc) 0x2#3 :: leBytes nn
  | .gbJrCc cc e => [byteCC 0x1#3 (condIndex cc) 0x0#3, e]
  | .gbLdPairNn pp nn => bytePP 0x0#2 (pairIndex pp) 0x1#4 :: leBytes nn
  | .gbAddHl pp => [bytePP 0x0#2 (pairIndex pp) 0x9#4]
  | .gbPush pp => [bytePP 0x3#2 (stackPairIndex pp) 0x5#4]
  | .gbPop pp => [bytePP 0x3#2 (stackPairIndex pp) 0x1#4]
  | .gbLdRN dst n => [byteDS 0x0#2 (reg8Index dst) 0x6#3, n]
  | .gbAddR src => [byteDS 0x2#2 0x0#3 (reg8Index src)]
  | .gbAdcR src => [byteDS 0x2#2 0x1#3 (reg8Index src)]
  | .gbSubR src => [byteDS 0x2#2 0x2#3 (reg8Index src)]
  | .gbSbcR src => [byteDS 0x2#2 0x3#3 (reg8Index src)]
  | .gbAndR src => [byteDS 0x2#2 0x4#3 (reg8Index src)]
  | .gbXorR src => [byteDS 0x2#2 0x5#3 (reg8Index src)]
  | .gbOrR src => [byteDS 0x2#2 0x6#3 (reg8Index src)]
  | .gbCpR src => [byteDS 0x2#2 0x7#3 (reg8Index src)]
  | .gbLdRR dst src => [byteDS 0x1#2 (reg8Index dst) (reg8Index src)]
  | .gbBit b src => [0xCB#8, byteDS 0x1#2 b (reg8Index src)]
  | .gbRes b src => [0xCB#8, byteDS 0x2#2 b (reg8Index src)]
  | .gbSet b src => [0xCB#8, byteDS 0x3#2 b (reg8Index src)]

end Sys2Proof
end

