-- ==== Sys2Proof/Machine/State.lean ====
section
/-! DEFINITION. The state (10_state) as plain data, the ways a step can stop, and the state after reset. -/

namespace Sys2Proof.Machine

/-- Sparse memory: the bytes that differ from `unlisted`, by address, addresses strictly rising. -/
abbrev Memory := List Host.Cell

/-- What an address that the list leaves out reads as: the reset value of memory (10_state R16, R25). -/
def unlisted : Byte := 0x00

/-- The CHIP-8 display (10_state R23): 32 rows of 64 one-bit cells, `disp[y*64 + x]` being bit x of row y. -/
abbrev Display := Vector (BitVec 64) 32

/-- The run state (10_state R13). -/
inductive Run where
  | running
  | halted
deriving DecidableEq, Repr

/-- Why a session halted (10_state R15, 60_exceptions R280). -/
inductive HaltCause where
  | none
  | invalidOpcode
  | haltInstruction
  | busFault
  | stackFault
deriving DecidableEq, Repr

/-- The registers every state block has (10_state R13 to R15). -/
structure Status where
  run : Run
  lastInstruction : Word
  haltCause : HaltCause
  haltInfo : Word
deriving DecidableEq, Repr

/-- A CHIP-8 state block (10_state R16 to R24). -/
structure C8Block where
  mem : Memory
  v : Vector Byte 16
  i : Word
  pc : Word
  sp : Byte
  stack : Vector Word 16
  dt : Byte
  st : Byte
  disp : Display
  key : Byte
  status : Status
deriving DecidableEq, Repr

/-- A GB state block (10_state R25 to R32). The pairs are views of the registers (R27). -/
structure GbBlock where
  mem : Memory
  a : Byte
  f : Byte
  b : Byte
  c : Byte
  d : Byte
  e : Byte
  h : Byte
  l : Byte
  pc : Word
  sp : Word
  ime : Bool
  key : Byte
  status : Status
deriving DecidableEq, Repr

/-- An instance for one architecture with blocks of type β (10_state R10 to R12). -/
structure Engine (β : Type) where
  tableBuilt : Bool
  ctx : Option Nat
  blocks : List (Nat × β)
  nextId : Nat
deriving DecidableEq, Repr

/-- The host operations (70_reset_and_hazards R312). -/
inductive HostOp where
  | initializeBlock
  | setEmulationContext (id : Option Nat)
  /-- `none` is a file that cannot be opened (R316, 60_exceptions R298). -/
  | loadProgram (image : Option (List Byte))
  | tickEmulation
  | setKeyboardValue (code : Nat)
  | quitProgram
  | timerTick
deriving DecidableEq, Repr

/-- What a host operation returned (R310, R316, 40_dispatch_tick R122). The model's own output (log 6). -/
inductive Reply where
  /-- The operation returns nothing, or none has run yet. -/
  | unit
  /-- Tick: the cycle count, or 0 when the session has halted. -/
  | cycles (n : Nat)
  | bytesLoaded (n : Nat)
  /-- `Initialize` with status 0 and the identity of the new block. -/
  | initialized (id : Nat)
  /-- `Initialize` with a non-zero status. -/
  | allocationFailed
deriving DecidableEq, Repr

/-- The whole machine: the parameters `ARCH`, `GB_RESET` and `GB_CYCLES` as data that no operation writes (logs
1, 15, 24), an instance of each core, and the model's own inputs, output and counters (logs 3 to 6). -/
structure State where
  arch : Arch
  gbParams : GbParams
  chip8 : Engine C8Block
  gb : Engine GbBlock
  inbox : List HostOp
  reply : Reply
  draws : Nat
  allocs : Nat
deriving DecidableEq, Repr

/-- Reasons for which the machine stops outside its own halted state. There is none: every error of the
spec is an entry to the halted state (60_exceptions R280, R284), which is a next state. -/
inductive Fault : Type
deriving DecidableEq, Repr

/-- Reasons for which the model gives an execution no meaning. -/
inductive Refusal where
  /-- Raised by `exec` for an instruction without a meaning; no arm is one. Safe. -/
  | notModelled (mnemonic : String)
  /-- Raised by an operation that needs a block while `ctx` names no live one (40_dispatch_tick R124,
  70_reset_and_hazards R315, R316, 60_exceptions R292). Safe: the spec refuses it. -/
  | noContext
  /-- Raised by `SetEmulationContext` of an identity that is no live block (70_reset_and_hazards R313).
  Safe: the spec refuses it and everything after it. -/
  | badContext
  /-- Raised by `exec` of one core's instruction while `arch` is the other (00_scope R2), which Tick never
  does. Safe (log 12). -/
  | wrongArchitecture
  /-- Raised by `TimerTick` in a GB instance, which has no timer (60_exceptions R292). Safe (log 12). -/
  | noTimer
deriving DecidableEq, Repr

/-- R13 to R15 after reset. -/
def Status.reset : Status :=
  { run := .running, lastInstruction := Config.lastInvalid, haltCause := .none, haltInfo := 0 }

/-- The CHIP-8 reset values (10_state R33). -/
def C8Block.reset : C8Block :=
  { mem := [], v := Vector.replicate 16 0, i := 0, pc := 0x0200, sp := 0,
    stack := Vector.replicate 16 0, dt := 0, st := 0, disp := Vector.replicate 32 0,
    key := Config.keyNone, status := .reset }

/-- The GB reset values under a given `GB_RESET` (10_state R34). -/
def GbBlock.resetWith (r : GbReset) : GbBlock :=
  { mem := r.mem, a := r.a, f := r.f, b := r.b, c := r.c, d := r.d, e := r.e, h := r.h, l := r.l,
    pc := r.pc, sp := r.sp, ime := false, key := Config.keyNone, status := .reset }

/-- The GB reset values under the defaults (10_state R34). -/
def GbBlock.reset : GbBlock := .resetWith Config.gbParams.reset

/-- An instance as created (10_state R11, R12) after one `Initialize` gave block 0 (log 2). -/
def Engine.reset {β : Type} (block : β) : Engine β :=
  { tableBuilt := false, ctx := none, blocks := [(0, block)], nextId := 1 }

/-- The machine right after reset (10_state R11, R12, R33, R34; logs 1 to 7, 15, 24). -/
def State.reset : State :=
  { arch := Config.arch, gbParams := Config.gbParams, chip8 := .reset .reset, gb := .reset .reset,
    inbox := [], reply := .unit, draws := 0, allocs := 0 }

end Sys2Proof.Machine
end

