-- ==== Sys2Proof/Machine/Ops.lean ====
section
/-! DEFINITION. The shared operations: memory (20_memory), blocks of an instance (10_state R10, R12), the
entry to the halted state (60_exceptions R284), and how a handler runs on the active block (40_dispatch_tick
R117 to R119, R124). -/

namespace Sys2Proof.Machine

/-! ## Memory -/

/-- The byte at an address. -/
def Memory.read (m : Memory) (a : Nat) : Byte := (m.lookup a).getD unlisted

/-- Puts a byte before the first listed address above it. -/
def Memory.insert (m : Memory) (a : Nat) (v : Byte) : Memory :=
  match m with
  | [] => [(a, v)]
  | c :: rest => if a < c.1 then (a, v) :: c :: rest else c :: Memory.insert rest a v

/-- Stores a byte, keeping the canonical form: a byte equal to `unlisted` is not listed. -/
def Memory.write (m : Memory) (a : Nat) (v : Byte) : Memory :=
  let others := m.filter fun c => c.1 != a
  if v = unlisted then others else Memory.insert others a v

/-- Stores bytes at rising addresses. -/
def Memory.writeBytes (m : Memory) (base : Nat) (bytes : List Byte) : Memory :=
  match bytes with
  | [] => m
  | v :: rest => Memory.writeBytes (m.write base v) (base + 1) rest

/-- The canonical form of a memory of `size` bytes: addresses strictly rising and inside the memory, and no
entry equal to what an unlisted address reads as. -/
abbrev Memory.wf (size : Nat) (m : Memory) : Prop :=
  (m.map Prod.fst).Pairwise (· < ·) ∧ ∀ c ∈ m, c.1 < size ∧ c.2 ≠ unlisted

/-! ## Blocks of an instance -/

/-- The block that `ctx` names, if it names a live one (10_state R12). -/
def Engine.active {β : Type} (e : Engine β) : Option β := e.ctx.bind fun id => e.blocks.lookup id

/-- The block that `ctx` names becomes `b`; every other block stays. -/
def Engine.putActive {β : Type} (e : Engine β) (b : β) : Engine β :=
  { e with blocks := e.blocks.map fun c => if e.ctx = some c.1 then (c.1, b) else c }

def State.putC8 (s : State) (b : C8Block) : State := { s with chip8 := s.chip8.putActive b }
def State.putGb (s : State) (g : GbBlock) : State := { s with gb := s.gb.putActive g }
def State.answer (s : State) (r : Reply) : State := { s with reply := r }

/-! ## The halted state

There is no return from it (60_exceptions R288), so the entry stands alone. -/

/-- Entry to the halted state, common to all causes (60_exceptions R284, 40_dispatch_tick R118 `Halt`). -/
def Status.halt (st : Status) (cause : HaltCause) (info : Word) : Status :=
  { st with run := .halted, haltCause := cause, haltInfo := info }

def C8Block.halt (b : C8Block) (cause : HaltCause) (info : Word) : C8Block :=
  { b with status := b.status.halt cause info }

def GbBlock.halt (g : GbBlock) (cause : HaltCause) (info : Word) : GbBlock :=
  { g with status := g.status.halt cause info }

/-- Records the opcode of a successful lookup, or the sentinel (10_state R14). -/
def Status.record (st : Status) (op : Word) : Status := { st with lastInstruction := op }

/-- The halt of a failed lookup: the sentinel is recorded and the offending value kept (60_exceptions R281). -/
def Status.invalid (st : Status) (raw : Word) : Status :=
  (st.record Config.lastInvalid).halt .invalidOpcode raw

/-- The numeric codes of `haltCause` (10_state R15). -/
def haltCode (c : HaltCause) : Nat :=
  match c with
  | .none => 0
  | .invalidOpcode => 1
  | .haltInstruction => 2
  | .busFault => 3
  | .stackFault => 4

/-! ## CHIP-8 handlers -/

/-- `raise X(info)` (00_scope R8): a fault with which a CHIP-8 handler is abandoned. -/
inductive Raise where
  /-- 60_exceptions R282. -/
  | busFault (address : Word)
  /-- 60_exceptions R283. -/
  | stackFault (opcode : Word)
deriving DecidableEq, Repr

/-- The halt cause of a raise (R280). -/
def raiseCause (r : Raise) : HaltCause :=
  match r with
  | .busFault _ => .busFault
  | .stackFault _ => .stackFault

/-- The `haltInfo` of a raise (R280). -/
def raiseInfo (r : Raise) : Word :=
  match r with
  | .busFault address => address
  | .stackFault opcode => opcode

/-- Whether the n bytes from an address all lie in CHIP-8 memory (20_memory R51); no byte always does. -/
def c8InRange (base : Word) (n : Nat) : Bool := n == 0 || decide (base.toNat + n ≤ Config.c8MemSize)

/-- The lowest address above 0xFFF of bytes that start at `base` and reach above it (20_memory R51, R52). -/
def c8FaultAddress (base : Word) : Word := if base < 0x1000 then 0x1000 else base

/-- Checks every address of an instruction's accesses before it changes anything (R51, 60_exceptions R287). -/
def c8Guard (base : Word) (n : Nat) (b : C8Block) : Except Raise C8Block :=
  if c8InRange base n then .ok b else .error (.busFault (c8FaultAddress base))

/-- The count a CHIP-8 handler reports, `C8_CYCLES` (40_dispatch_tick R118, R125). DESIGN CHOICE (log 29): fixed
at 1, as 00_scope R6 has it, where 92_eei_decisions and 93_implementation_defined U12 list it as an argument. -/
def c8Cycles : Nat := 1

/-- Runs a CHIP-8 handler on the active block. A raise discards the handler's writes and halts
(40_dispatch_tick R117, R118); without a live block there is no meaning (R124). -/
def State.runC8 (s : State) (handler : C8Block → Except Raise C8Block) :
    Host.Outcome State Fault Refusal :=
  match s.arch with
  | .gb => .refused .wrongArchitecture
  | .chip8 =>
    match s.chip8.active with
    | none => .refused .noContext
    | some b =>
      match handler b with
      | .ok b' => .next ((s.putC8 b').answer (.cycles c8Cycles))
      | .error r => .next ((s.putC8 (b.halt (raiseCause r) (raiseInfo r))).answer (.cycles 0))

/-! ## GB handlers -/

/-- Runs a GB handler, which gives the new block and its cycle count (40_dispatch_tick R117, R119). -/
def State.runGb (s : State) (handler : GbBlock → GbBlock × Nat) :
    Host.Outcome State Fault Refusal :=
  match s.arch with
  | .chip8 => .refused .wrongArchitecture
  | .gb =>
    match s.gb.active with
    | none => .refused .noContext
    | some g => .next ((s.putGb (handler g).1).answer (.cycles (handler g).2))

/-- The cycle table of the GB instance (R125). -/
def State.cycles (s : State) : GbCycles := s.gbParams.cycles

/-- GB `MemRead(a, 1)` (20_memory R56); a 16-bit address is always inside the memory. -/
def GbBlock.memRead (g : GbBlock) (a : Word) : Byte := g.mem.read a.toNat

/-- GB `MemWrite(a, 1, v)` (20_memory R56). -/
def GbBlock.memWrite (g : GbBlock) (a : Word) (v : Byte) : GbBlock :=
  { g with mem := g.mem.write a.toNat v }

/-- The high byte of a 16-bit value. -/
def hiByte (v : Word) : Byte := v.extractLsb' 8 8

/-- The low byte of a 16-bit value. -/
def loByte (v : Word) : Byte := v.extractLsb' 0 8

/-- `Push16(v)` (20_memory R58). -/
def GbBlock.push16 (g : GbBlock) (v : Word) : GbBlock :=
  let g1 := { g with sp := g.sp - 1 }
  let g2 := g1.memWrite g1.sp (hiByte v)
  let g3 := { g2 with sp := g2.sp - 1 }
  g3.memWrite g3.sp (loByte v)

/-- The value of `Pop16()` (20_memory R58): low byte at SP, high byte above it. -/
def GbBlock.popValue (g : GbBlock) : Word := leWord (g.memRead g.sp) (g.memRead (g.sp + 1))

/-- The block after `Pop16()`. -/
def GbBlock.popped (g : GbBlock) : GbBlock := { g with sp := g.sp + 2 }

/-- `PC` moves past k operand bytes, which the handler has read (30_encoding R89). -/
def GbBlock.advance (g : GbBlock) (k : Nat) : GbBlock := { g with pc := g.pc + BitVec.ofNat 16 k }

end Sys2Proof.Machine
end

