-- ==== Sys2Proof/Machine/Operands.lean ====
section
/-! DEFINITION. Every operand form: the CHIP-8 registers (10_state R17) and display cells (R23), and the GB
registers, pairs, indirect operands and conditions (10_state R26 to R28, 30_encoding R87, R88). -/

namespace Sys2Proof.Machine

/-! ## CHIP-8 -/

/-- `V[i]`. -/
def C8Block.getV (b : C8Block) (i : BitVec 4) : Byte := b.v[i.toNat]'i.isLt

/-- `V[i] <- v`. -/
def C8Block.setV (b : C8Block) (i : BitVec 4) (v : Byte) : C8Block :=
  { b with v := b.v.set i.toNat v i.isLt }

/-- A result and then a flag in VF (42_chip8_alu R160). -/
def C8Block.setVWithFlag (b : C8Block) (i : BitVec 4) (v : Byte) (flag : Bool) : C8Block :=
  (b.setV i v).setV 0xF (if flag then 1 else 0)

/-- `PC <- PC + 2` if the condition holds (the skips, R144 to R147, R182, R183). -/
def C8Block.skipIf (b : C8Block) (cond : Bool) : C8Block :=
  if cond then { b with pc := b.pc + 2 } else b

/-- The cell at column x and row y, each taken modulo its size (43_chip8_io_mem R181). -/
def Display.cell (d : Display) (x y : Nat) : Bool :=
  (d[y % 32]'(Nat.mod_lt y (by decide))).getLsbD (x % 64)

/-- The same cell inverted. -/
def Display.flip (d : Display) (x y : Nat) : Display :=
  d.set (y % 32) ((d[y % 32]'(Nat.mod_lt y (by decide))) ^^^ (1#64 <<< (x % 64)))
    (Nat.mod_lt y (by decide))

/-! ## GB -/

/-- `pair(lo, hi) = hi :: lo` (10_state R27). -/
def pairUp (hi lo : Byte) : Word := hi ++ lo

def GbBlock.bc (g : GbBlock) : Word := pairUp g.b g.c
def GbBlock.de (g : GbBlock) : Word := pairUp g.d g.e
def GbBlock.hl (g : GbBlock) : Word := pairUp g.h g.l

/-- `F` as read: the low nibble reads 0 (10_state R28). -/
def GbBlock.readF (g : GbBlock) : Byte := g.f &&& 0xF0

/-- `F` written: the low nibble ignores writes (10_state R28). -/
def GbBlock.writeF (g : GbBlock) (v : Byte) : GbBlock := { g with f := v &&& 0xF0 }

def GbBlock.af (g : GbBlock) : Word := pairUp g.a g.readF

def GbBlock.setBc (g : GbBlock) (v : Word) : GbBlock := { g with b := hiByte v, c := loByte v }
def GbBlock.setDe (g : GbBlock) (v : Word) : GbBlock := { g with d := hiByte v, e := loByte v }
def GbBlock.setHl (g : GbBlock) (v : Word) : GbBlock := { g with h := hiByte v, l := loByte v }
def GbBlock.setAf (g : GbBlock) (v : Word) : GbBlock := { g with a := hiByte v }.writeF (loByte v)

/-- `R[i]` read (30_encoding R87). -/
def GbBlock.getR (g : GbBlock) (r : Reg8) : Byte :=
  match r with
  | .b => g.b
  | .c => g.c
  | .d => g.d
  | .e => g.e
  | .h => g.h
  | .l => g.l
  | .hlMem => g.memRead g.hl
  | .a => g.a

/-- `R[i] <- v` (30_encoding R87). -/
def GbBlock.setR (g : GbBlock) (r : Reg8) (v : Byte) : GbBlock :=
  match r with
  | .b => { g with b := v }
  | .c => { g with c := v }
  | .d => { g with d := v }
  | .e => { g with e := v }
  | .h => { g with h := v }
  | .l => { g with l := v }
  | .hlMem => g.memWrite g.hl v
  | .a => { g with a := v }

/-- `RP[i]` read (R87). -/
def GbBlock.getPair (g : GbBlock) (p : Pair) : Word :=
  match p with
  | .bc => g.bc
  | .de => g.de
  | .hl => g.hl
  | .sp => g.sp

/-- `RP[i] <- v` (R87). -/
def GbBlock.setPair (g : GbBlock) (p : Pair) (v : Word) : GbBlock :=
  match p with
  | .bc => g.setBc v
  | .de => g.setDe v
  | .hl => g.setHl v
  | .sp => { g with sp := v }

/-- `RP2[i]` read (R87). -/
def GbBlock.getStackPair (g : GbBlock) (p : StackPair) : Word :=
  match p with
  | .bc => g.bc
  | .de => g.de
  | .hl => g.hl
  | .af => g.af

/-- `RP2[i] <- v` (R87). -/
def GbBlock.setStackPair (g : GbBlock) (p : StackPair) (v : Word) : GbBlock :=
  match p with
  | .bc => g.setBc v
  | .de => g.setDe v
  | .hl => g.setHl v
  | .af => g.setAf v

/-- `F.Z` (10_state R28). -/
def GbBlock.flagZ (g : GbBlock) : Bool := g.f.getLsbD 7

/-- `F.N` (10_state R28). -/
def GbBlock.flagN (g : GbBlock) : Bool := g.f.getLsbD 6

/-- `F.H` (10_state R28). -/
def GbBlock.flagH (g : GbBlock) : Bool := g.f.getLsbD 5

/-- `F.C` (10_state R28). -/
def GbBlock.flagC (g : GbBlock) : Bool := g.f.getLsbD 4

/-- `Cond(cc)` (30_encoding R88). -/
def GbBlock.cond (g : GbBlock) (cc : Cond) : Bool :=
  match cc with
  | .nz => !g.flagZ
  | .z => g.flagZ
  | .nc => !g.flagC
  | .c => g.flagC

end Sys2Proof.Machine
end

