-- ==== Sys2Proof/Machine/Flags.lean ====
section
/-! DEFINITION. Every result with its flags: the CHIP-8 results that write VF (42_chip8_alu R167 to R171) and
the GB results that write F (45_gb_alu R221 to R230, 47_gb_cb R271). Results are computed exactly and
narrowed at the end (00_scope R8). -/

namespace Sys2Proof.Machine

/-! ## CHIP-8: a result and the value of VF -/

/-- `a + b` and its carry (R167). -/
def c8Sum (a b : Byte) : Byte × Bool := (u8 (a.toNat + b.toNat), decide (a.toNat + b.toNat > 0xFF))

/-- `a - b` and NOT borrow (R168, and R170 with the operands exchanged). -/
def c8Difference (a b : Byte) : Byte × Bool :=
  (u8 ((a.toNat : Int) - b.toNat), decide (a.toNat ≥ b.toNat))

/-- `a >> 1` and the bit shifted out (R169). -/
def c8ShiftRight (a : Byte) : Byte × Bool := (a >>> 1, a.getLsbD 0)

/-- `a << 1` and the bit shifted out (R171). -/
def c8ShiftLeft (a : Byte) : Byte × Bool := (a <<< 1, a.getLsbD 7)

/-! ## GB -/

/-- `Z :: N :: H :: C :: 0b0000` (R221). -/
def packFlags (z n h c : Bool) : Byte :=
  BitVec.ofBool z ++ BitVec.ofBool n ++ BitVec.ofBool h ++ BitVec.ofBool c ++ 0#4

/-- `v & 0xF` as a number. -/
def lowNibble (v : Byte) : Nat := v.toNat % 16

/-- `a + v + cin` with the flags of `ADD` and `ADC` (R222, R223). -/
def aluAdd (a v : Byte) (cin : Bool) : Byte × Byte :=
  let result := u8 (a.toNat + v.toNat + cin.toNat)
  (result, packFlags (decide (result = 0)) false
    (decide (lowNibble a + lowNibble v + cin.toNat > 0xF))
    (decide (a.toNat + v.toNat + cin.toNat > 0xFF)))

/-- `a - v - cin` with the flags of `SUB`, `SBC` and `CP` (R224, R225, R229). -/
def aluSub (a v : Byte) (cin : Bool) : Byte × Byte :=
  let result := u8 ((a.toNat : Int) - v.toNat - cin.toNat)
  (result, packFlags (decide (result = 0)) true
    (decide (lowNibble a < lowNibble v + cin.toNat))
    (decide (a.toNat < v.toNat + cin.toNat)))

/-- A logic result with its flags: N and C are 0, H is given (R226 to R228). -/
def aluLogic (result : Byte) (h : Bool) : Byte × Byte :=
  (result, packFlags (decide (result = 0)) false h false)

/-- `A` and `F` receive an operation's result and flags (R221). -/
def GbBlock.setAcc (g : GbBlock) (r : Byte × Byte) : GbBlock := { g with a := r.1 }.writeF r.2

/-- Only `F` receives the flags (`CP`, R229). -/
def GbBlock.setFlagsOnly (g : GbBlock) (r : Byte × Byte) : GbBlock := g.writeF r.2

/-- `ADD HL,rr` (R230): Z stays, N is 0, H and C are the carries out of bits 11 and 15. -/
def GbBlock.addToHl (g : GbBlock) (v : Word) : GbBlock :=
  let h := g.hl
  (g.setHl (u16 (h.toNat + v.toNat))).writeF
    (packFlags g.flagZ false
      (decide (h.toNat % 0x1000 + v.toNat % 0x1000 > 0x0FFF))
      (decide (h.toNat + v.toNat > 0xFFFF)))

/-- The flags of `BIT b` on a value (R271): Z is the complement of the bit, N 0, H 1, C kept. -/
def GbBlock.testBit (g : GbBlock) (b : BitVec 3) (v : Byte) : GbBlock :=
  g.writeF (packFlags (!v.getLsbD b.toNat) false true g.flagC)

/-- `v & ~(1 << b)` (R272). -/
def clearBit (b : BitVec 3) (v : Byte) : Byte := v &&& ~~~(1#8 <<< b.toNat)

/-- `v | (1 << b)` (R273). -/
def setBit (b : BitVec 3) (v : Byte) : Byte := v ||| (1#8 <<< b.toNat)

end Sys2Proof.Machine
end

