-- ==== Sys2Proof/Machine/C8Alu.lean ====
section
/-! DEFINITION. CHIP-8 register loads, arithmetic and logic (42_chip8_alu). -/

namespace Sys2Proof.Machine

/-- `LD Vx,kk` (R161). -/
def execC8LdByte (x : BitVec 4) (kk : Byte) (s : State) : Host.Outcome State Fault Refusal :=
  s.runC8 fun b => .ok (b.setV x kk)

/-- `ADD Vx,kk` (R162): VF is not written. -/
def execC8AddByte (x : BitVec 4) (kk : Byte) (s : State) : Host.Outcome State Fault Refusal :=
  s.runC8 fun b => .ok (b.setV x (c8Sum (b.getV x) kk).1)

/-- `LD Vx,Vy` (R163). -/
def execC8LdReg (x y : BitVec 4) (s : State) : Host.Outcome State Fault Refusal :=
  s.runC8 fun b => .ok (b.setV x (b.getV y))

/-- `OR Vx,Vy` (R164): VF is not written. -/
def execC8Or (x y : BitVec 4) (s : State) : Host.Outcome State Fault Refusal :=
  s.runC8 fun b => .ok (b.setV x (b.getV x ||| b.getV y))

/-- `AND Vx,Vy` (R165): VF is not written. -/
def execC8And (x y : BitVec 4) (s : State) : Host.Outcome State Fault Refusal :=
  s.runC8 fun b => .ok (b.setV x (b.getV x &&& b.getV y))

/-- `XOR Vx,Vy` (R166): VF is not written. -/
def execC8Xor (x y : BitVec 4) (s : State) : Host.Outcome State Fault Refusal :=
  s.runC8 fun b => .ok (b.setV x (b.getV x ^^^ b.getV y))

/-- `ADD Vx,Vy` (R160, R167). -/
def execC8Add (x y : BitVec 4) (s : State) : Host.Outcome State Fault Refusal :=
  s.runC8 fun b =>
    let r := c8Sum (b.getV x) (b.getV y)
    .ok (b.setVWithFlag x r.1 r.2)

/-- `SUB Vx,Vy` (R160, R168). -/
def execC8Sub (x y : BitVec 4) (s : State) : Host.Outcome State Fault Refusal :=
  s.runC8 fun b =>
    let r := c8Difference (b.getV x) (b.getV y)
    .ok (b.setVWithFlag x r.1 r.2)

/-- `SHR Vx` (R160, R169): y is ignored. -/
def execC8Shr (x : BitVec 4) (s : State) : Host.Outcome State Fault Refusal :=
  s.runC8 fun b =>
    let r := c8ShiftRight (b.getV x)
    .ok (b.setVWithFlag x r.1 r.2)

/-- `SUBN Vx,Vy` (R160, R170). -/
def execC8Subn (x y : BitVec 4) (s : State) : Host.Outcome State Fault Refusal :=
  s.runC8 fun b =>
    let r := c8Difference (b.getV y) (b.getV x)
    .ok (b.setVWithFlag x r.1 r.2)

/-- `SHL Vx` (R160, R171): y is ignored. -/
def execC8Shl (x : BitVec 4) (s : State) : Host.Outcome State Fault Refusal :=
  s.runC8 fun b =>
    let r := c8ShiftLeft (b.getV x)
    .ok (b.setVWithFlag x r.1 r.2)

/-- `LD I,nnn` (R172). -/
def execC8LdI (nnn : BitVec 12) (s : State) : Host.Outcome State Fault Refusal :=
  s.runC8 fun b => .ok { b with i := nnn.setWidth 16 }

/-- `RND Vx,kk` (R173). Each execution takes the next byte of `Config.draw`, a FREE VALUE (log 4). -/
def execC8Rnd (x : BitVec 4) (kk : Byte) (s : State) : Host.Outcome State Fault Refusal :=
  State.runC8 { s with draws := s.draws + 1 } fun b => .ok (b.setV x (Config.draw s.draws &&& kk))

/-- `ADD I,Vx` (R174): VF is not written, and the sum wraps at 0x10000 only. -/
def execC8AddI (x : BitVec 4) (s : State) : Host.Outcome State Fault Refusal :=
  s.runC8 fun b => .ok { b with i := u16 (b.i.toNat + (b.getV x).toNat) }

end Sys2Proof.Machine
end

