-- ==== Sys2Proof/Machine/C8Control.lean ====
section
/-! DEFINITION. CHIP-8 control transfer and skips (41_chip8_control). A handler runs with `PC` past its
opcode (40_dispatch_tick R118). -/

namespace Sys2Proof.Machine

/-- `RET` (R140). An `SP` above 16, which no run reaches, faults as well (log 11). -/
def execC8Ret (s : State) : Host.Outcome State Fault Refusal :=
  s.runC8 fun b =>
    if h : 0 < b.sp.toNat ∧ b.sp.toNat ≤ 16 then
      .ok { b with sp := b.sp - 1, pc := b.stack[b.sp.toNat - 1]'(by omega) }
    else .error (.stackFault 0x00EE)

/-- `JP nnn` (R141). -/
def execC8Jp (nnn : BitVec 12) (s : State) : Host.Outcome State Fault Refusal :=
  s.runC8 fun b => .ok { b with pc := nnn.setWidth 16 }

/-- `CALL nnn` (R142). The fault's info is the raw opcode. -/
def execC8Call (nnn : BitVec 12) (s : State) : Host.Outcome State Fault Refusal :=
  s.runC8 fun b =>
    if h : b.sp.toNat < 16 then
      .ok { b with stack := b.stack.set b.sp.toNat b.pc h, sp := b.sp + 1, pc := nnn.setWidth 16 }
    else .error (.stackFault (wordNNN 0x2 nnn))

/-- `JP V0,nnn` (R143). -/
def execC8JpV0 (nnn : BitVec 12) (s : State) : Host.Outcome State Fault Refusal :=
  s.runC8 fun b => .ok { b with pc := nnn.setWidth 16 + (b.getV 0).setWidth 16 }

/-- `SE Vx,kk` (R144). -/
def execC8SeByte (x : BitVec 4) (kk : Byte) (s : State) : Host.Outcome State Fault Refusal :=
  s.runC8 fun b => .ok (b.skipIf (b.getV x == kk))

/-- `SNE Vx,kk` (R145). -/
def execC8SneByte (x : BitVec 4) (kk : Byte) (s : State) : Host.Outcome State Fault Refusal :=
  s.runC8 fun b => .ok (b.skipIf (b.getV x != kk))

/-- `SE Vx,Vy` (R146). -/
def execC8SeReg (x y : BitVec 4) (s : State) : Host.Outcome State Fault Refusal :=
  s.runC8 fun b => .ok (b.skipIf (b.getV x == b.getV y))

/-- `SNE Vx,Vy` (R147). -/
def execC8SneReg (x y : BitVec 4) (s : State) : Host.Outcome State Fault Refusal :=
  s.runC8 fun b => .ok (b.skipIf (b.getV x != b.getV y))

end Sys2Proof.Machine
end

