-- ==== Sys2Proof/Machine/C8Io.lean ====
section
/-! DEFINITION. CHIP-8 display, keyboard, timer and memory instructions (43_chip8_io_mem). -/

namespace Sys2Proof.Machine

/-- One row of a sprite (R181): bit 7 is the leftmost pixel, a set bit inverts its pixel, and the flag
records a pixel that was set before. -/
def drawByte (bits : Byte) (x y : Nat) (acc : Display × Bool) : Display × Bool :=
  (List.range 8).foldl
    (fun acc col =>
      if bits.getLsbD (7 - col) then
        (Display.flip acc.1 (x + col) y, acc.2 || Display.cell acc.1 (x + col) y)
      else acc)
    acc

/-- The n rows of a sprite from memory (R181). -/
def drawSprite (m : Memory) (base n x y : Nat) (d : Display) : Display × Bool :=
  (List.range n).foldl (fun acc row => drawByte (m.read (base + row)) x (y + row) acc) (d, false)

/-- `V[0]` to `V[n-1]` stored from an address upward (R190). -/
def storeRegs (b : C8Block) (n : Nat) : C8Block :=
  let store := fun (m : Memory) k => m.write (b.i.toNat + k) (b.getV (BitVec.ofNat 4 k))
  { b with mem := (List.range n).foldl store b.mem }

/-- `V[0]` to `V[n-1]` loaded from an address upward (R191). -/
def loadRegs (b : C8Block) (n : Nat) : C8Block :=
  (List.range n).foldl
    (fun acc k => acc.setV (BitVec.ofNat 4 k) (b.mem.read (b.i.toNat + k))) b

/-- The three decimal digits of a byte, hundreds first (R189). -/
def bcdDigits (v : Byte) : List Byte :=
  [BitVec.ofNat 8 (v.toNat / 100), BitVec.ofNat 8 (v.toNat / 10 % 10), BitVec.ofNat 8 (v.toNat % 10)]

/-- `CLS` (R180). -/
def execC8Cls (s : State) : Host.Outcome State Fault Refusal :=
  s.runC8 fun b => .ok { b with disp := Vector.replicate 32 0 }

/-- `DRW Vx,Vy,n` (R181). VF is written last. -/
def execC8Drw (x y n : BitVec 4) (s : State) : Host.Outcome State Fault Refusal :=
  s.runC8 fun b => do
    let b ← c8Guard b.i n.toNat b
    let r := drawSprite b.mem b.i.toNat n.toNat ((b.getV x).toNat % 64) ((b.getV y).toNat % 32) b.disp
    .ok ({ b with disp := r.1 }.setV 0xF (if r.2 then 1 else 0))

/-- `SKP Vx` (R182). -/
def execC8Skp (x : BitVec 4) (s : State) : Host.Outcome State Fault Refusal :=
  s.runC8 fun b => .ok (b.skipIf (b.key == b.getV x))

/-- `SKNP Vx` (R183). -/
def execC8Sknp (x : BitVec 4) (s : State) : Host.Outcome State Fault Refusal :=
  s.runC8 fun b => .ok (b.skipIf (b.key != b.getV x))

/-- `LD Vx,DT` (R184). -/
def execC8LdVxDt (x : BitVec 4) (s : State) : Host.Outcome State Fault Refusal :=
  s.runC8 fun b => .ok (b.setV x b.dt)

/-- `LD Vx,K` (R185): with no key, `PC` goes back onto this instruction. -/
def execC8LdVxK (x : BitVec 4) (s : State) : Host.Outcome State Fault Refusal :=
  s.runC8 fun b =>
    if b.key = Config.keyNone then .ok { b with pc := b.pc - 2 } else .ok (b.setV x b.key)

/-- `LD DT,Vx` (R186). -/
def execC8LdDtVx (x : BitVec 4) (s : State) : Host.Outcome State Fault Refusal :=
  s.runC8 fun b => .ok { b with dt := b.getV x }

/-- `LD ST,Vx` (R187). -/
def execC8LdStVx (x : BitVec 4) (s : State) : Host.Outcome State Fault Refusal :=
  s.runC8 fun b => .ok { b with st := b.getV x }

/-- `LD F,Vx` (R188): the low nibble selects the glyph. -/
def execC8LdF (x : BitVec 4) (s : State) : Host.Outcome State Fault Refusal :=
  s.runC8 fun b => .ok { b with i := BitVec.ofNat 16 (Config.c8FontBase + 5 * lowNibble (b.getV x)) }

/-- `LD B,Vx` (R189). -/
def execC8LdB (x : BitVec 4) (s : State) : Host.Outcome State Fault Refusal :=
  s.runC8 fun b => do
    let b ← c8Guard b.i 3 b
    .ok { b with mem := b.mem.writeBytes b.i.toNat (bcdDigits (b.getV x)) }

/-- `LD [I],Vx` (R190): `I` is not changed. -/
def execC8StoreRegs (x : BitVec 4) (s : State) : Host.Outcome State Fault Refusal :=
  s.runC8 fun b => do
    let b ← c8Guard b.i (x.toNat + 1) b
    .ok (storeRegs b (x.toNat + 1))

/-- `LD Vx,[I]` (R191): `I` is not changed. -/
def execC8LoadRegs (x : BitVec 4) (s : State) : Host.Outcome State Fault Refusal :=
  s.runC8 fun b => do
    let b ← c8Guard b.i (x.toNat + 1) b
    .ok (loadRegs b (x.toNat + 1))

end Sys2Proof.Machine
end

