-- ==== Sys2Proof/Machine/Cycles.lean ====
section
/-! DEFINITION. What each GB handler reports, from a table `GB_CYCLES` (40_dispatch_tick R125). -/

namespace Sys2Proof

/-- `LD r,r'`, whose operands are registers or the memory byte at HL. -/
def GbCycles.ofLdRR (t : GbCycles) (dst src : Reg8) : Nat :=
  if dst = .hlMem ∨ src = .hlMem then t.ldRRMem else t.ldRR

/-- `LD r,n`. -/
def GbCycles.ofLdRN (t : GbCycles) (dst : Reg8) : Nat := if dst = .hlMem then t.ldMemN else t.ldRN

/-- The register form of an 8-bit operation. -/
def GbCycles.ofAluR (t : GbCycles) (src : Reg8) : Nat := if src = .hlMem then t.aluMem else t.aluR

/-- `JP cc,nn`. -/
def GbCycles.ofJpCc (t : GbCycles) (taken : Bool) : Nat := if taken then t.jpTaken else t.jpNotTaken

/-- `JR cc,e`. -/
def GbCycles.ofJrCc (t : GbCycles) (taken : Bool) : Nat := if taken then t.jrTaken else t.jrNotTaken

/-- `BIT b,r`. -/
def GbCycles.ofBit (t : GbCycles) (src : Reg8) : Nat := if src = .hlMem then t.bitMem else t.bit

/-- `RES b,r` and `SET b,r`. -/
def GbCycles.ofResSet (t : GbCycles) (src : Reg8) : Nat := if src = .hlMem then t.resSetMem else t.resSet

/-- What a handler that halts the session reports (R117, R125). -/
def cyclesHalt : Nat := 0

end Sys2Proof
end

