-- ==== Sys2Proof/Machine/GbAlu.lean ====
section
/-! DEFINITION. GB arithmetic, logic and compare (45_gb_alu). The second operand is `R[s]` in the register
form and the byte n in the immediate form (R220). -/

namespace Sys2Proof.Machine

/-- An operation on `A` and a second operand, `A` and `F` written (R220, R221). -/
def onAcc (op : GbBlock → Byte → Byte × Byte) (g : GbBlock) (v : Byte) : GbBlock := g.setAcc (op g v)

def opAdd (g : GbBlock) (v : Byte) : Byte × Byte := aluAdd g.a v false
def opAdc (g : GbBlock) (v : Byte) : Byte × Byte := aluAdd g.a v g.flagC
def opSub (g : GbBlock) (v : Byte) : Byte × Byte := aluSub g.a v false
def opSbc (g : GbBlock) (v : Byte) : Byte × Byte := aluSub g.a v g.flagC
def opAnd (g : GbBlock) (v : Byte) : Byte × Byte := aluLogic (g.a &&& v) true
def opXor (g : GbBlock) (v : Byte) : Byte × Byte := aluLogic (g.a ^^^ v) false
def opOr (g : GbBlock) (v : Byte) : Byte × Byte := aluLogic (g.a ||| v) false

/-- `ADD A,r` (R222). -/
def execGbAddR (src : Reg8) (s : State) : Host.Outcome State Fault Refusal :=
  s.runGb fun g => (onAcc opAdd g (g.getR src), s.cycles.ofAluR src)

/-- `ADD A,n` (R222). -/
def execGbAddN (n : Byte) (s : State) : Host.Outcome State Fault Refusal :=
  s.runGb fun g => (onAcc opAdd (g.advance 1) n, s.cycles.aluN)

/-- `ADC A,r` (R223). -/
def execGbAdcR (src : Reg8) (s : State) : Host.Outcome State Fault Refusal :=
  s.runGb fun g => (onAcc opAdc g (g.getR src), s.cycles.ofAluR src)

/-- `ADC A,n` (R223). -/
def execGbAdcN (n : Byte) (s : State) : Host.Outcome State Fault Refusal :=
  s.runGb fun g => (onAcc opAdc (g.advance 1) n, s.cycles.aluN)

/-- `SUB r` (R224). -/
def execGbSubR (src : Reg8) (s : State) : Host.Outcome State Fault Refusal :=
  s.runGb fun g => (onAcc opSub g (g.getR src), s.cycles.ofAluR src)

/-- `SUB n` (R224). -/
def execGbSubN (n : Byte) (s : State) : Host.Outcome State Fault Refusal :=
  s.runGb fun g => (onAcc opSub (g.advance 1) n, s.cycles.aluN)

/-- `SBC A,r` (R225). -/
def execGbSbcR (src : Reg8) (s : State) : Host.Outcome State Fault Refusal :=
  s.runGb fun g => (onAcc opSbc g (g.getR src), s.cycles.ofAluR src)

/-- `SBC A,n` (R225). -/
def execGbSbcN (n : Byte) (s : State) : Host.Outcome State Fault Refusal :=
  s.runGb fun g => (onAcc opSbc (g.advance 1) n, s.cycles.aluN)

/-- `AND r` (R226). -/
def execGbAndR (src : Reg8) (s : State) : Host.Outcome State Fault Refusal :=
  s.runGb fun g => (onAcc opAnd g (g.getR src), s.cycles.ofAluR src)

/-- `AND n` (R226). -/
def execGbAndN (n : Byte) (s : State) : Host.Outcome State Fault Refusal :=
  s.runGb fun g => (onAcc opAnd (g.advance 1) n, s.cycles.aluN)

/-- `XOR r` (R227). -/
def execGbXorR (src : Reg8) (s : State) : Host.Outcome State Fault Refusal :=
  s.runGb fun g => (onAcc opXor g (g.getR src), s.cycles.ofAluR src)

/-- `XOR n` (R227). -/
def execGbXorN (n : Byte) (s : State) : Host.Outcome State Fault Refusal :=
  s.runGb fun g => (onAcc opXor (g.advance 1) n, s.cycles.aluN)

/-- `OR r` (R228). -/
def execGbOrR (src : Reg8) (s : State) : Host.Outcome State Fault Refusal :=
  s.runGb fun g => (onAcc opOr g (g.getR src), s.cycles.ofAluR src)

/-- `OR n` (R228). -/
def execGbOrN (n : Byte) (s : State) : Host.Outcome State Fault Refusal :=
  s.runGb fun g => (onAcc opOr (g.advance 1) n, s.cycles.aluN)

/-- `CP r` (R229): `A` is unchanged. -/
def execGbCpR (src : Reg8) (s : State) : Host.Outcome State Fault Refusal :=
  s.runGb fun g => (g.setFlagsOnly (opSub g (g.getR src)), s.cycles.ofAluR src)

/-- `CP n` (R229): `A` is unchanged. -/
def execGbCpN (n : Byte) (s : State) : Host.Outcome State Fault Refusal :=
  s.runGb fun g => ((g.advance 1).setFlagsOnly (opSub g n), s.cycles.aluN)

/-- `ADD HL,rr` (R230). -/
def execGbAddHl (pp : Pair) (s : State) : Host.Outcome State Fault Refusal :=
  s.runGb fun g => (g.addToHl (g.getPair pp), s.cycles.addHl)

end Sys2Proof.Machine
end

