-- ==== Sys2Proof/Machine/GbCb.lean ====
section
/-! DEFINITION. GB CB-prefixed bit instructions (47_gb_cb). The prefix's handler moves `PC` past the
sub-opcode and does the second lookup (R270). -/

namespace Sys2Proof.Machine

/-- The handler of `BIT b,r` (R271). -/
def handleBit (t : GbCycles) (b : BitVec 3) (src : Reg8) (g : GbBlock) : GbBlock × Nat :=
  (g.testBit b (g.getR src), t.ofBit src)

/-- The handler of `RES b,r` (R272). -/
def handleRes (t : GbCycles) (b : BitVec 3) (src : Reg8) (g : GbBlock) : GbBlock × Nat :=
  (g.setR src (clearBit b (g.getR src)), t.ofResSet src)

/-- The handler of `SET b,r` (R273). -/
def handleSet (t : GbCycles) (b : BitVec 3) (src : Reg8) (g : GbBlock) : GbBlock × Nat :=
  (g.setR src (setBit b (g.getR src)), t.ofResSet src)

/-- The halt of a CB sub-opcode that matches no row (R270). -/
def handleNoSub (sub : Byte) (g : GbBlock) : GbBlock × Nat :=
  ({ g with status := g.status.invalid (pairUp 0xCB sub) }, cyclesHalt)

/-- `PREFIX CB` (R270): the second lookup, and the handler it selects. -/
def execGbPrefixCb (sub : Byte) (s : State) : Host.Outcome State Fault Refusal :=
  s.runGb fun g =>
    match fetch cbTable (sub.setWidth 16) with
    | some .bit => handleBit s.cycles (fieldD sub) (reg8Of (fieldS sub)) (g.advance 1)
    | some .res => handleRes s.cycles (fieldD sub) (reg8Of (fieldS sub)) (g.advance 1)
    | some .set => handleSet s.cycles (fieldD sub) (reg8Of (fieldS sub)) (g.advance 1)
    | none => handleNoSub sub (g.advance 1)

/-- `BIT b,r` behind its prefix (R270, R271). -/
def execGbBit (b : BitVec 3) (src : Reg8) (s : State) : Host.Outcome State Fault Refusal :=
  s.runGb fun g => handleBit s.cycles b src (g.advance 1)

/-- `RES b,r` behind its prefix (R270, R272). -/
def execGbRes (b : BitVec 3) (src : Reg8) (s : State) : Host.Outcome State Fault Refusal :=
  s.runGb fun g => handleRes s.cycles b src (g.advance 1)

/-- `SET b,r` behind its prefix (R270, R273). -/
def execGbSet (b : BitVec 3) (src : Reg8) (s : State) : Host.Outcome State Fault Refusal :=
  s.runGb fun g => handleSet s.cycles b src (g.advance 1)

end Sys2Proof.Machine
end

