-- ==== Sys2Proof/Machine/GbControl.lean ====
section
/-! DEFINITION. GB jumps, calls, returns, halts and the interrupt-enable bit (46_gb_control). -/

namespace Sys2Proof.Machine

/-- `PC <- u16(PC + e)` with e sign-extended (R252, 30_encoding R89). -/
def GbBlock.jumpBy (g : GbBlock) (e : Byte) : GbBlock := { g with pc := g.pc + e.signExtend 16 }

/-- `JP nn` (R250). -/
def execGbJp (nn : Word) (s : State) : Host.Outcome State Fault Refusal :=
  s.runGb fun g => ({ g.advance 2 with pc := nn }, s.cycles.jp)

/-- `JP cc,nn` (R251): the operand bytes are read whether or not it is taken. -/
def execGbJpCc (cc : Cond) (nn : Word) (s : State) : Host.Outcome State Fault Refusal :=
  s.runGb fun g =>
    (if g.cond cc then { g.advance 2 with pc := nn } else g.advance 2, s.cycles.ofJpCc (g.cond cc))

/-- `JR e` (R252). -/
def execGbJr (e : Byte) (s : State) : Host.Outcome State Fault Refusal :=
  s.runGb fun g => ((g.advance 1).jumpBy e, s.cycles.jr)

/-- `JR cc,e` (R253). -/
def execGbJrCc (cc : Cond) (e : Byte) (s : State) : Host.Outcome State Fault Refusal :=
  s.runGb fun g =>
    (if g.cond cc then (g.advance 1).jumpBy e else g.advance 1, s.cycles.ofJrCc (g.cond cc))

/-- `CALL nn` (R254). -/
def execGbCall (nn : Word) (s : State) : Host.Outcome State Fault Refusal :=
  s.runGb fun g => ({ (g.advance 2).push16 (g.advance 2).pc with pc := nn }, s.cycles.call)

/-- `RET` (R255). -/
def execGbRet (s : State) : Host.Outcome State Fault Refusal :=
  s.runGb fun g => ({ g.popped with pc := g.popValue }, s.cycles.ret)

/-- `HALT` (R260). -/
def execGbHalt (s : State) : Host.Outcome State Fault Refusal :=
  s.runGb fun g => (g.halt .haltInstruction 0x0076, cyclesHalt)

/-- `STOP` (R261): one byte. -/
def execGbStop (s : State) : Host.Outcome State Fault Refusal :=
  s.runGb fun g => (g.halt .haltInstruction 0x0010, cyclesHalt)

/-- `DI` (R262). -/
def execGbDi (s : State) : Host.Outcome State Fault Refusal :=
  s.runGb fun g => ({ g with ime := false }, s.cycles.diEi)

/-- `EI` (R263): at once. -/
def execGbEi (s : State) : Host.Outcome State Fault Refusal :=
  s.runGb fun g => ({ g with ime := true }, s.cycles.diEi)

end Sys2Proof.Machine
end

