-- ==== Sys2Proof/Machine/GbLoad.lean ====
section
/-! DEFINITION. GB loads, stores, push and pop (44_gb_load). A handler runs with `PC` past its opcode byte
(40_dispatch_tick R119) and first moves it past the operand bytes it reads (30_encoding R89, log 8). -/

namespace Sys2Proof.Machine

/-- `LD r,r'`, `LD r,(HL)`, `LD (HL),r` (R200, R201). -/
def execGbLdRR (dst src : Reg8) (s : State) : Host.Outcome State Fault Refusal :=
  s.runGb fun g => (g.setR dst (g.getR src), s.cycles.ofLdRR dst src)

/-- `LD r,n` and `LD (HL),n` (R202). -/
def execGbLdRN (dst : Reg8) (n : Byte) (s : State) : Host.Outcome State Fault Refusal :=
  s.runGb fun g => ((g.advance 1).setR dst n, s.cycles.ofLdRN dst)

/-- `LD rr,nn` (R203). -/
def execGbLdPairNn (pp : Pair) (nn : Word) (s : State) : Host.Outcome State Fault Refusal :=
  s.runGb fun g => ((g.advance 2).setPair pp nn, s.cycles.ldPairNn)

/-- `LD (BC),A` (R204). -/
def execGbLdBcA (s : State) : Host.Outcome State Fault Refusal :=
  s.runGb fun g => (g.memWrite g.bc g.a, s.cycles.ldIndirect)

/-- `LD (DE),A` (R205). -/
def execGbLdDeA (s : State) : Host.Outcome State Fault Refusal :=
  s.runGb fun g => (g.memWrite g.de g.a, s.cycles.ldIndirect)

/-- `LDI (HL),A` (R206). -/
def execGbLdiHlA (s : State) : Host.Outcome State Fault Refusal :=
  s.runGb fun g => ((g.memWrite g.hl g.a).setHl (g.hl + 1), s.cycles.ldiLdd)

/-- `LDD (HL),A` (R207). -/
def execGbLddHlA (s : State) : Host.Outcome State Fault Refusal :=
  s.runGb fun g => ((g.memWrite g.hl g.a).setHl (g.hl - 1), s.cycles.ldiLdd)

/-- `LD A,(BC)` (R208). -/
def execGbLdABc (s : State) : Host.Outcome State Fault Refusal :=
  s.runGb fun g => ({ g with a := g.memRead g.bc }, s.cycles.ldIndirect)

/-- `LD A,(DE)` (R209). -/
def execGbLdADe (s : State) : Host.Outcome State Fault Refusal :=
  s.runGb fun g => ({ g with a := g.memRead g.de }, s.cycles.ldIndirect)

/-- `LDI A,(HL)` (R210). -/
def execGbLdiAHl (s : State) : Host.Outcome State Fault Refusal :=
  s.runGb fun g => ({ g with a := g.memRead g.hl }.setHl (g.hl + 1), s.cycles.ldiLdd)

/-- `LDD A,(HL)` (R211). -/
def execGbLddAHl (s : State) : Host.Outcome State Fault Refusal :=
  s.runGb fun g => ({ g with a := g.memRead g.hl }.setHl (g.hl - 1), s.cycles.ldiLdd)

/-- `PUSH rr` (R212). -/
def execGbPush (pp : StackPair) (s : State) : Host.Outcome State Fault Refusal :=
  s.runGb fun g => (g.push16 (g.getStackPair pp), s.cycles.push)

/-- `POP rr` (R213). -/
def execGbPop (pp : StackPair) (s : State) : Host.Outcome State Fault Refusal :=
  s.runGb fun g => (g.popped.setStackPair pp g.popValue, s.cycles.pop)

end Sys2Proof.Machine
end

