-- ==== Sys2Proof/Machine/Dispatch.lean ====
section
/-! DEFINITION. Which meaning each instruction has. The driver has moved PC past the opcode and recorded it
(40_dispatch_tick R118, R119; Machine/Tick.lean). -/

namespace Sys2Proof.Machine

def exec (i : Instr) (s : State) : Host.Outcome State Fault Refusal :=
  match i with
  | .c8Cls => Sys2Proof.Machine.execC8Cls s
  | .c8Ret => Sys2Proof.Machine.execC8Ret s
  | .c8Jp nnn => Sys2Proof.Machine.execC8Jp nnn s
  | .c8Call nnn => Sys2Proof.Machine.execC8Call nnn s
  | .c8SeByte x kk => Sys2Proof.Machine.execC8SeByte x kk s
  | .c8SneByte x kk => Sys2Proof.Machine.execC8SneByte x kk s
  | .c8SeReg x y => Sys2Proof.Machine.execC8SeReg x y s
  | .c8LdByte x kk => Sys2Proof.Machine.execC8LdByte x kk s
  | .c8AddByte x kk => Sys2Proof.Machine.execC8AddByte x kk s
  | .c8LdReg x y => Sys2Proof.Machine.execC8LdReg x y s
  | .c8Or x y => Sys2Proof.Machine.execC8Or x y s
  | .c8And x y => Sys2Proof.Machine.execC8And x y s
  | .c8Xor x y => Sys2Proof.Machine.execC8Xor x y s
  | .c8Add x y => Sys2Proof.Machine.execC8Add x y s
  | .c8Sub x y => Sys2Proof.Machine.execC8Sub x y s
  | .c8Shr x _ => Sys2Proof.Machine.execC8Shr x s
  | .c8Subn x y => Sys2Proof.Machine.execC8Subn x y s
  | .c8Shl x _ => Sys2Proof.Machine.execC8Shl x s
  | .c8SneReg x y => Sys2Proof.Machine.execC8SneReg x y s
  | .c8LdI nnn => Sys2Proof.Machine.execC8LdI nnn s
  | .c8JpV0 nnn => Sys2Proof.Machine.execC8JpV0 nnn s
  | .c8Rnd x kk => Sys2Proof.Machine.execC8Rnd x kk s
  | .c8Drw x y n => Sys2Proof.Machine.execC8Drw x y n s
  | .c8Skp x => Sys2Proof.Machine.execC8Skp x s
  | .c8Sknp x => Sys2Proof.Machine.execC8Sknp x s
  | .c8LdVxDt x => Sys2Proof.Machine.execC8LdVxDt x s
  | .c8LdVxK x => Sys2Proof.Machine.execC8LdVxK x s
  | .c8LdDtVx x => Sys2Proof.Machine.execC8LdDtVx x s
  | .c8LdStVx x => Sys2Proof.Machine.execC8LdStVx x s
  | .c8AddI x => Sys2Proof.Machine.execC8AddI x s
  | .c8LdF x => Sys2Proof.Machine.execC8LdF x s
  | .c8LdB x => Sys2Proof.Machine.execC8LdB x s
  | .c8StoreRegs x => Sys2Proof.Machine.execC8StoreRegs x s
  | .c8LoadRegs x => Sys2Proof.Machine.execC8LoadRegs x s
  | .gbStop => Sys2Proof.Machine.execGbStop s
  | .gbHalt => Sys2Proof.Machine.execGbHalt s
  | .gbDi => Sys2Proof.Machine.execGbDi s
  | .gbEi => Sys2Proof.Machine.execGbEi s
  | .gbPrefixCb sub => Sys2Proof.Machine.execGbPrefixCb sub s
  | .gbJp nn => Sys2Proof.Machine.execGbJp nn s
  | .gbJr e => Sys2Proof.Machine.execGbJr e s
  | .gbCall nn => Sys2Proof.Machine.execGbCall nn s
  | .gbRet => Sys2Proof.Machine.execGbRet s
  | .gbLdBcA => Sys2Proof.Machine.execGbLdBcA s
  | .gbLdDeA => Sys2Proof.Machine.execGbLdDeA s
  | .gbLdiHlA => Sys2Proof.Machine.execGbLdiHlA s
  | .gbLddHlA => Sys2Proof.Machine.execGbLddHlA s
  | .gbLdABc => Sys2Proof.Machine.execGbLdABc s
  | .gbLdADe => Sys2Proof.Machine.execGbLdADe s
  | .gbLdiAHl => Sys2Proof.Machine.execGbLdiAHl s
  | .gbLddAHl => Sys2Proof.Machine.execGbLddAHl s
  | .gbAddN n => Sys2Proof.Machine.execGbAddN n s
  | .gbAdcN n => Sys2Proof.Machine.execGbAdcN n s
  | .gbSubN n => Sys2Proof.Machine.execGbSubN n s
  | .gbSbcN n => Sys2Proof.Machine.execGbSbcN n s
  | .gbAndN n => Sys2Proof.Machine.execGbAndN n s
  | .gbXorN n => Sys2Proof.Machine.execGbXorN n s
  | .gbOrN n => Sys2Proof.Machine.execGbOrN n s
  | .gbCpN n => Sys2Proof.Machine.execGbCpN n s
  | .gbJpCc cc nn => Sys2Proof.Machine.execGbJpCc cc nn s
  | .gbJrCc cc e => Sys2Proof.Machine.execGbJrCc cc e s
  | .gbLdPairNn pp nn => Sys2Proof.Machine.execGbLdPairNn pp nn s
  | .gbAddHl pp => Sys2Proof.Machine.execGbAddHl pp s
  | .gbPush pp => Sys2Proof.Machine.execGbPush pp s
  | .gbPop pp => Sys2Proof.Machine.execGbPop pp s
  | .gbLdRN dst n => Sys2Proof.Machine.execGbLdRN dst n s
  | .gbAddR src => Sys2Proof.Machine.execGbAddR src s
  | .gbAdcR src => Sys2Proof.Machine.execGbAdcR src s
  | .gbSubR src => Sys2Proof.Machine.execGbSubR src s
  | .gbSbcR src => Sys2Proof.Machine.execGbSbcR src s
  | .gbAndR src => Sys2Proof.Machine.execGbAndR src s
  | .gbXorR src => Sys2Proof.Machine.execGbXorR src s
  | .gbOrR src => Sys2Proof.Machine.execGbOrR src s
  | .gbCpR src => Sys2Proof.Machine.execGbCpR src s
  | .gbLdRR dst src => Sys2Proof.Machine.execGbLdRR dst src s
  | .gbBit b src => Sys2Proof.Machine.execGbBit b src s
  | .gbRes b src => Sys2Proof.Machine.execGbRes b src s
  | .gbSet b src => Sys2Proof.Machine.execGbSet b src s

end Sys2Proof.Machine
end

