-- ==== Sys2Proof/Machine/Tick.lean ====
section
/-! DEFINITION. The Tick driver of both cores (40_dispatch_tick R118 to R124): instruction read, PC advance,
lookup, record, execute. -/

namespace Sys2Proof.Machine

/-- The raw opcode at `PC` (20_memory R52): two bytes, most significant first. -/
def C8Block.opcode (b : C8Block) : Word :=
  beWord (b.mem.read b.pc.toNat) (b.mem.read (b.pc.toNat + 1))

/-- The block whose instruction read faulted (R118, 60_exceptions R282): `PC` is unchanged. -/
def C8Block.readFault (b : C8Block) : C8Block :=
  { b with status := (b.status.record Config.lastInvalid).halt .busFault (c8FaultAddress b.pc) }

/-- `PC` past the opcode, before lookup (R118). -/
def C8Block.passOpcode (b : C8Block) : C8Block := { b with pc := b.pc + 2 }

/-- The block a CHIP-8 handler starts from: `PC` past the opcode, the opcode recorded (R118). -/
def C8Block.dispatched (b : C8Block) (op : Word) : C8Block :=
  { b.passOpcode with status := b.status.record op }

/-- `PC` past the opcode, and the halt of a failed lookup (R118, 60_exceptions R281). -/
def C8Block.noEntry (b : C8Block) (op : Word) : C8Block :=
  { b.passOpcode with status := b.status.invalid op }

/-- `Tick()` of the CHIP-8 core (R118). -/
def tickC8 (s : State) : Host.Outcome State Fault Refusal :=
  match s.chip8.active with
  | none => .refused .noContext
  | some b =>
    if b.status.run = .halted then .next (s.answer (.cycles 0))
    else if b.pc > 0xFFE then .next ((s.putC8 b.readFault).answer (.cycles 0))
    else
      match decodeC8 (tableNow s.chip8.tableBuilt c8Table) b.opcode with
      | .ok i => exec i (s.putC8 (b.dispatched b.opcode))
      | .error _ => .next ((s.putC8 (b.noEntry b.opcode)).answer (.cycles 0))

/-- The opcode byte at `PC` and the two bytes after it, addresses wrapping (20_memory R56, log 8). -/
def GbBlock.fetched (g : GbBlock) : List Byte :=
  [g.memRead g.pc, g.memRead (g.pc + 1), g.memRead (g.pc + 2)]

/-- The opcode byte at `PC`, zero-extended (R119). -/
def GbBlock.opcode (g : GbBlock) : Word := (g.memRead g.pc).setWidth 16

/-- The block a GB handler starts from: `PC` past the opcode byte, the opcode recorded (R119). -/
def GbBlock.dispatched (g : GbBlock) (op : Word) : GbBlock :=
  { g.advance 1 with status := g.status.record op }

/-- `PC` past the opcode byte, and the halt of a failed lookup (R119, 60_exceptions R281). -/
def GbBlock.noEntry (g : GbBlock) (op : Word) : GbBlock :=
  { g.advance 1 with status := g.status.invalid op }

/-- `Tick()` of the GB core (R119). -/
def tickGb (s : State) : Host.Outcome State Fault Refusal :=
  match s.gb.active with
  | none => .refused .noContext
  | some g =>
    if g.status.run = .halted then .next (s.answer (.cycles 0))
    else
      match decodeGb (tableNow s.gb.tableBuilt gbTable) g.fetched with
      | .ok (i, _) => exec i (s.putGb (g.dispatched g.opcode))
      | .error _ => .next ((s.putGb (g.noEntry g.opcode)).answer (.cycles 0))

/-- `TickEmulation` (70_reset_and_hazards R312). -/
def tick (s : State) : Host.Outcome State Fault Refusal :=
  match s.arch with
  | .chip8 => tickC8 s
  | .gb => tickGb s

end Sys2Proof.Machine
end

