-- ==== Sys2Proof/Machine/HostOps.lean ====
section
/-! DEFINITION. The host operations (70_reset_and_hazards R310 to R316, 60_exceptions R292, R293). Each acts on
the instance of the architecture the machine is built for. -/

namespace Sys2Proof.Machine

/-- `C8_FONT`: 16 glyphs of 5 bytes (20_memory R68). -/
def c8Font : List Byte :=
  [0xF0, 0x90, 0x90, 0x90, 0xF0] ++ [0x20, 0x60, 0x20, 0x20, 0x70] ++
  [0xF0, 0x10, 0xF0, 0x80, 0xF0] ++ [0xF0, 0x10, 0xF0, 0x10, 0xF0] ++
  [0x90, 0x90, 0xF0, 0x10, 0x10] ++ [0xF0, 0x80, 0xF0, 0x10, 0xF0] ++
  [0xF0, 0x80, 0xF0, 0x90, 0xF0] ++ [0xF0, 0x10, 0x20, 0x40, 0x40] ++
  [0xF0, 0x90, 0xF0, 0x90, 0xF0] ++ [0xF0, 0x90, 0xF0, 0x10, 0xF0] ++
  [0xF0, 0x90, 0xF0, 0x90, 0x90] ++ [0xE0, 0x90, 0xE0, 0x90, 0xE0] ++
  [0xF0, 0x80, 0x80, 0x80, 0xF0] ++ [0xE0, 0x90, 0x90, 0x90, 0xE0] ++
  [0xF0, 0x80, 0xF0, 0x80, 0xF0] ++ [0xF0, 0x80, 0xF0, 0x80, 0x80]

/-! ## On an instance -/

/-- `Build()` (40_dispatch_tick R110). -/
def Engine.build {β : Type} (e : Engine β) : Engine β := { e with tableBuilt := true }

/-- A new live block, under an identity no block has had (R310). -/
def Engine.addBlock {β : Type} (e : Engine β) (fresh : β) : Engine β :=
  { e with blocks := e.blocks ++ [(e.nextId, fresh)], nextId := e.nextId + 1 }

/-- Whether `id` names a live block. -/
def Engine.live {β : Type} (e : Engine β) (id : Nat) : Bool := (e.blocks.lookup id).isSome

/-- Whether `SetEmulationContext` has a meaning for the argument (R313): `none` or a live block. -/
def Engine.accepts {β : Type} (e : Engine β) (id : Option Nat) : Bool :=
  match id with
  | none => true
  | some id => e.live id

/-- `QuitProgram` (R314). -/
def Engine.quit {β : Type} (e : Engine β) : Engine β :=
  match e.ctx with
  | none => e
  | some id => { e with ctx := none, blocks := e.blocks.filter fun c => c.1 != id }

/-! ## On a block -/

/-- The copying of `LoadProgram` into CHIP-8 memory and the count it returns (R316). -/
def C8Block.load (b : C8Block) (image : Option (List Byte)) : C8Block × Nat :=
  match image with
  | none => (b, 0)
  | some bytes =>
    if Config.c8LoadBase + bytes.length > Config.c8MemSize then (b, 0)
    else
      let withFont := b.mem.writeBytes Config.c8FontBase c8Font
      ({ b with mem := withFont.writeBytes Config.c8LoadBase bytes }, bytes.length)

/-- The copying of `LoadProgram` into GB memory and the count it returns (R316). -/
def GbBlock.load (g : GbBlock) (image : Option (List Byte)) : GbBlock × Nat :=
  match image with
  | none => (g, 0)
  | some bytes =>
    if Config.gbLoadBase + bytes.length > Config.gbMemSize then (g, 0)
    else ({ g with mem := g.mem.writeBytes Config.gbLoadBase bytes }, bytes.length)

/-- A countdown counter one lower, staying at 0 (60_exceptions R292). -/
def countDown (v : Byte) : Byte := if v = 0 then 0 else v - 1

/-- `TimerTick` on a CHIP-8 block (R292). -/
def C8Block.timerTick (b : C8Block) : C8Block := { b with dt := countDown b.dt, st := countDown b.st }

/-! ## On the machine -/

/-- `Initialize` (R310). Whether it fails is a FREE VALUE (log 5); on failure nothing but the count of calls
changes. -/
def startBlock (s : State) : State :=
  let counted := { s with allocs := s.allocs + 1 }
  if Config.allocationFails s.allocs then counted.answer .allocationFailed
  else
    match s.arch with
    | .chip8 =>
      State.answer { counted with chip8 := s.chip8.addBlock .reset } (.initialized s.chip8.nextId)
    | .gb =>
      State.answer { counted with gb := s.gb.addBlock (.resetWith s.gbParams.reset) }
        (.initialized s.gb.nextId)

/-- `SetEmulationContext` (R313). -/
def setContext (s : State) (id : Option Nat) : Host.Outcome State Fault Refusal :=
  match s.arch with
  | .chip8 =>
    if s.chip8.accepts id then
      .next (State.answer { s with chip8 := { s.chip8 with ctx := id } } .unit)
    else .refused .badContext
  | .gb =>
    if s.gb.accepts id then .next (State.answer { s with gb := { s.gb with ctx := id } } .unit)
    else .refused .badContext

/-- `LoadProgram` (R316): the table is built first. -/
def loadProgram (s : State) (image : Option (List Byte)) : Host.Outcome State Fault Refusal :=
  match s.arch with
  | .chip8 =>
    let built := { s with chip8 := s.chip8.build }
    match s.chip8.active with
    | none => .refused .noContext
    | some b => .next ((built.putC8 (b.load image).1).answer (.bytesLoaded (b.load image).2))
  | .gb =>
    let built := { s with gb := s.gb.build }
    match s.gb.active with
    | none => .refused .noContext
    | some g => .next ((built.putGb (g.load image).1).answer (.bytesLoaded (g.load image).2))

/-- `SetKeyboardValue` (R315): the low 8 bits of the code. -/
def setKeyboardValue (s : State) (code : Nat) : Host.Outcome State Fault Refusal :=
  match s.arch with
  | .chip8 =>
    match s.chip8.active with
    | none => .refused .noContext
    | some b => .next ((s.putC8 { b with key := BitVec.ofNat 8 code }).answer .unit)
  | .gb =>
    match s.gb.active with
    | none => .refused .noContext
    | some g => .next ((s.putGb { g with key := BitVec.ofNat 8 code }).answer .unit)

/-- `QuitProgram` (R314). -/
def quitProgram (s : State) : State :=
  match s.arch with
  | .chip8 => State.answer { s with chip8 := s.chip8.quit } .unit
  | .gb => State.answer { s with gb := s.gb.quit } .unit

/-- `TimerTick` (60_exceptions R292); a GB instance has no timer (log 12). -/
def timerTick (s : State) : Host.Outcome State Fault Refusal :=
  match s.arch with
  | .chip8 =>
    match s.chip8.active with
    | none => .refused .noContext
    | some b => .next ((s.putC8 b.timerTick).answer .unit)
  | .gb => .refused .noTimer

/-- One host operation (R312). -/
def perform (op : HostOp) (s : State) : Host.Outcome State Fault Refusal :=
  match op with
  | .initializeBlock => .next (startBlock s)
  | .setEmulationContext id => setContext s id
  | .loadProgram image => loadProgram s image
  | .tickEmulation => tick s
  | .setKeyboardValue code => setKeyboardValue s code
  | .quitProgram => .next (quitProgram s)
  | .timerTick => timerTick s

/-- The operation the host performs next and the ones after it: an empty list means that the host Ticks
(log 3). -/
def nextOp (inbox : List HostOp) : HostOp × List HostOp :=
  match inbox with
  | [] => (.tickEmulation, [])
  | op :: rest => (op, rest)

/-! ## Placing one instruction (log 14) -/

/-- The table built and a live block selected: the active one, else the first, else a fresh one. -/
def Engine.ready {β : Type} (e : Engine β) (fresh : β) : Engine β :=
  match e.active, e.blocks with
  | some _, _ => e.build
  | none, c :: _ => { e.build with ctx := some c.1 }
  | none, [] => { e.build.addBlock fresh with ctx := some e.nextId }

/-- A function applied to the active block. -/
def Engine.mapActive {β : Type} (e : Engine β) (f : β → β) : Engine β :=
  match e.active with
  | none => e
  | some b => e.putActive (f b)

/-- A halted block running again; a running one as it is. -/
def Status.woken (st : Status) : Status :=
  if st.run = .halted then { st with run := .running, haltCause := .none } else st

/-- Bytes stored where a CHIP-8 block reads its next instruction. -/
def C8Block.place (b : C8Block) (bytes : List Byte) : C8Block :=
  let pc := if b.pc > 0xFFE then BitVec.ofNat 16 Config.c8LoadBase else b.pc
  { b with pc := pc, status := b.status.woken, mem := b.mem.writeBytes pc.toNat bytes }

/-- Bytes stored where a GB block reads its next instruction, addresses wrapping. -/
def GbBlock.place (g : GbBlock) (bytes : List Byte) : GbBlock :=
  let put := fun (acc : GbBlock × Word) v => (acc.1.memWrite acc.2 v, acc.2 + 1)
  (bytes.foldl put ({ g with status := g.status.woken }, g.pc)).1

end Sys2Proof.Machine
end

