-- ==== Sys2Proof/Machine/Step.lean ====
section
/-! DEFINITION. One step, and the placing of one instruction where the next step fetches. -/

namespace Sys2Proof.Machine

/-- One step is one host operation: the next of the inbox, or a Tick when the inbox is empty
(00_scope R7, 70_reset_and_hazards R312, log 3). -/
def step (s : State) : Host.Outcome State Fault Refusal :=
  perform (nextOp s.inbox).1 { s with inbox := (nextOp s.inbox).2 }

/-- `s` with an instruction's bits where `step` fetches next, in the core they belong to (logs 13, 14). -/
def State.withFetchWord (s : State) (nbits w : Nat) : State :=
  match archOfBits nbits with
  | .chip8 =>
    { s with
      arch := .chip8, inbox := [],
      chip8 := (s.chip8.ready .reset).mapActive fun b => b.place (tableBytes nbits w) }
  | .gb =>
    { s with
      arch := .gb, inbox := [],
      gb := (s.gb.ready (.resetWith s.gbParams.reset)).mapActive fun g => g.place (tableBytes nbits w) }

end Sys2Proof.Machine
end

