-- ==== Sys2Proof/Safety.lean ====
section
/-! DEFINITION. What a good state is (10_state R36), and the terms in which claims are made: what an operation
changes and that it changes nothing else. -/

namespace Sys2Proof.Machine

/-! ## Good states (10_state R36) -/

/-- `run = Halted` if and only if `haltCause` is not `None`; an `InvalidOpcode` halt left the sentinel. -/
def Status.Good (st : Status) : Prop :=
  (st.run = .halted ↔ st.haltCause ≠ .none) ∧
    (st.haltCause = .invalidOpcode → st.lastInstruction = Config.lastInvalid)

/-- CHIP-8 `SP` is in 0 to 16 and memory is canonical. -/
def C8Block.Good (b : C8Block) : Prop :=
  b.sp.toNat ≤ 16 ∧ b.mem.wf Config.c8MemSize ∧ b.status.Good

/-- GB `F[3:0]` is 0 and memory is canonical. -/
def GbBlock.Good (g : GbBlock) : Prop :=
  g.f &&& 0x0F = 0 ∧ g.mem.wf Config.gbMemSize ∧ g.status.Good

/-- Every live block is good and known by one identity, used before, and `ctx` names a live one or none. -/
def Engine.Good {β : Type} (good : β → Prop) (e : Engine β) : Prop :=
  (∀ c ∈ e.blocks, good c.2 ∧ c.1 < e.nextId) ∧ (e.blocks.map Prod.fst).Nodup ∧
    ∀ id, e.ctx = some id → e.live id = true

/-- A `GB_RESET` whose block has `F[3:0]` 0 and canonical memory (R34, R36). -/
def GbReset.Good (r : GbReset) : Prop := r.f &&& 0x0F = 0 ∧ Memory.wf Config.gbMemSize r.mem

/-- Every block is good, and so is every block that `Initialize` can make. -/
def State.Good (s : State) : Prop :=
  s.chip8.Good C8Block.Good ∧ s.gb.Good GbBlock.Good ∧ GbReset.Good s.gbParams.reset

/-! ## Frames -/

/-- The fields of a CHIP-8 block. -/
inductive C8Field where
  | mem | v | i | pc | sp | stack | dt | st | disp | key | status
deriving DecidableEq, Repr

/-- A field is the same in two CHIP-8 blocks; memory is compared byte by byte. -/
def C8Field.same (k : C8Field) (b b' : C8Block) : Prop :=
  match k with
  | .mem => ∀ a, b'.mem.read a = b.mem.read a
  | .v => b'.v = b.v
  | .i => b'.i = b.i
  | .pc => b'.pc = b.pc
  | .sp => b'.sp = b.sp
  | .stack => b'.stack = b.stack
  | .dt => b'.dt = b.dt
  | .st => b'.st = b.st
  | .disp => b'.disp = b.disp
  | .key => b'.key = b.key
  | .status => b'.status = b.status

/-- Every field but those listed is the same. -/
def C8Frame (changed : List C8Field) (b b' : C8Block) : Prop := ∀ k, k ∉ changed → k.same b b'

/-- The fields of a GB block. -/
inductive GbField where
  | mem | a | f | b | c | d | e | h | l | pc | sp | ime | key | status
deriving DecidableEq, Repr

/-- A field is the same in two GB blocks; memory is compared byte by byte. -/
def GbField.same (k : GbField) (g g' : GbBlock) : Prop :=
  match k with
  | .mem => ∀ x, g'.mem.read x = g.mem.read x
  | .a => g'.a = g.a
  | .f => g'.f = g.f
  | .b => g'.b = g.b
  | .c => g'.c = g.c
  | .d => g'.d = g.d
  | .e => g'.e = g.e
  | .h => g'.h = g.h
  | .l => g'.l = g.l
  | .pc => g'.pc = g.pc
  | .sp => g'.sp = g.sp
  | .ime => g'.ime = g.ime
  | .key => g'.key = g.key
  | .status => g'.status = g.status

/-- Every field but those listed is the same. -/
def GbFrame (changed : List GbField) (g g' : GbBlock) : Prop := ∀ k, k ∉ changed → k.same g g'

/-- The field an 8-bit operand index writes. -/
def fieldOfReg (r : Reg8) : GbField :=
  match r with
  | .b => .b
  | .c => .c
  | .d => .d
  | .e => .e
  | .h => .h
  | .l => .l
  | .hlMem => .mem
  | .a => .a

/-- The fields a pair index writes. -/
def fieldsOfPair (p : Pair) : List GbField :=
  match p with
  | .bc => [.b, .c]
  | .de => [.d, .e]
  | .hl => [.h, .l]
  | .sp => [.sp]

/-- The fields a stack-pair index writes. -/
def fieldsOfStackPair (p : StackPair) : List GbField :=
  match p with
  | .bc => [.b, .c]
  | .de => [.d, .e]
  | .hl => [.h, .l]
  | .af => [.a, .f]

/-- Memory is the same at every address that is not listed. -/
def SameOutside (addresses : List Nat) (m m' : Memory) : Prop :=
  ∀ a, a ∉ addresses → m'.read a = m.read a

/-- An instance is the same but for the contents of its active block. -/
def Engine.SameButActive {β : Type} (e e' : Engine β) : Prop :=
  e'.tableBuilt = e.tableBuilt ∧ e'.ctx = e.ctx ∧ e'.nextId = e.nextId ∧
    ∀ id, e.ctx ≠ some id → e'.blocks.lookup id = e.blocks.lookup id

/-! ## Operations on the active block -/

/-- The machine is a CHIP-8 instance whose active block is `b`. -/
def C8Ready (s : State) (b : C8Block) : Prop := s.arch = .chip8 ∧ s.chip8.active = some b

/-- The machine is a GB instance whose active block is `g`. -/
def GbReady (s : State) (g : GbBlock) : Prop := s.arch = .gb ∧ s.gb.active = some g

/-- `t` is `s` but for the active CHIP-8 block, now `b'`, and the reply. -/
def C8Done (s t : State) (b' : C8Block) (reply : Reply) : Prop :=
  t.chip8.active = some b' ∧ s.chip8.SameButActive t.chip8 ∧ t.gb = s.gb ∧ t.arch = s.arch ∧
    t.inbox = s.inbox ∧ t.draws = s.draws ∧ t.allocs = s.allocs ∧ t.reply = reply ∧
    t.gbParams = s.gbParams

/-- `t` is `s` but for the active GB block, now `g'`, and the reply. -/
def GbDone (s t : State) (g' : GbBlock) (reply : Reply) : Prop :=
  t.gb.active = some g' ∧ s.gb.SameButActive t.gb ∧ t.chip8 = s.chip8 ∧ t.arch = s.arch ∧
    t.inbox = s.inbox ∧ t.draws = s.draws ∧ t.allocs = s.allocs ∧ t.reply = reply ∧
    t.gbParams = s.gbParams

/-- The outcome is a next state, reached from `s`, with active CHIP-8 block `b'` and the given count. -/
def C8Completes (s : State) (o : Host.Outcome State Fault Refusal) (b' : C8Block) (n : Nat) : Prop :=
  ∃ t, o = .next t ∧ C8Done s t b' (.cycles n)

/-- The outcome is a next state, reached from `s`, with active GB block `g'` and a count above 0. -/
def GbCompletes (s : State) (o : Host.Outcome State Fault Refusal) (g' : GbBlock) : Prop :=
  ∃ t n, o = .next t ∧ 0 < n ∧ GbDone s t g' (.cycles n)

/-- A status whose session has halted (60_exceptions R284). -/
def haltedStatus (last : Word) (cause : HaltCause) (info : Word) : Status :=
  { run := .halted, lastInstruction := last, haltCause := cause, haltInfo := info }

/-- The outcome is the halt of the CHIP-8 session with a cause, nothing else of the block changed and 0
returned (R284). -/
def C8Halts (s : State) (o : Host.Outcome State Fault Refusal) (b : C8Block) (cause : HaltCause)
    (info : Word) : Prop :=
  C8Completes s o { b with status := haltedStatus b.status.lastInstruction cause info } 0

/-- A byte is `Z :: N :: H :: C :: 0b0000` (45_gb_alu R221). -/
def FlagsAre (f : Byte) (z n h c : Bool) : Prop :=
  f.toNat = 128 * z.toNat + 64 * n.toNat + 32 * h.toNat + 16 * c.toNat

/-- The outcome is the halt of the GB session with a cause, nothing else of the block changed and 0
returned (R284). -/
def GbHalts (s : State) (o : Host.Outcome State Fault Refusal) (g : GbBlock) (cause : HaltCause)
    (info : Word) : Prop :=
  ∃ t, o = .next t ∧
    GbDone s t { g with status := haltedStatus g.status.lastInstruction cause info } (.cycles 0)

/-! ## Operands, pixels and Ticks -/

/-- `i` is the register form or the immediate form of an 8-bit operation, `v` its second operand and `len`
the operand bytes it takes (45_gb_alu R220). -/
def OperandForm (ofReg : Reg8 → Instr) (ofByte : Byte → Instr) (g : GbBlock) (i : Instr) (v : Byte)
    (len : Word) : Prop :=
  (∃ r, i = ofReg r ∧ v = g.getR r ∧ len = 0) ∨ (i = ofByte v ∧ len = 1)

/-- A sprite of n rows at `base`, drawn at column x and row y, has a set bit on pixel (px, py): bit 7 is the
leftmost pixel, and each pixel wraps on its own (43_chip8_io_mem R181). -/
def SpriteCovers (m : Memory) (base n x y px py : Nat) : Prop :=
  ∃ row col, row < n ∧ col < 8 ∧ px = (x + col) % 64 ∧ py = (y + row) % 32 ∧
    (m.read (base + row)).getLsbD (7 - col) = true

/-- The next step is a Tick. -/
def AboutToTick (s : State) : Prop := (nextOp s.inbox).1 = .tickEmulation

/-- `s` with the operation that the next step performs taken off the inbox. -/
def State.taken (s : State) : State := { s with inbox := (nextOp s.inbox).2 }

/-- The two bytes at a CHIP-8 block's `PC`. -/
def C8Block.opcodeBytes (b : C8Block) : List Byte :=
  [b.mem.read b.pc.toNat, b.mem.read (b.pc.toNat + 1)]

/-- A status that is running. -/
def Status.Running (st : Status) : Prop := st.run = .running

/-- A safe run: k steps from `s` are all next states. -/
def RunsSafely (k : Nat) (s : State) : Prop :=
  match k with
  | 0 => True
  | k + 1 => ∃ t, step s = .next t ∧ RunsSafely k t

end Sys2Proof.Machine
end

