-- ==== Sys2Proof/Certificates/Slice0/Obligations.lean ====
section
/-! DEFINITION. The statements about the machine. Each docstring names the rule of spec/ it formalises.
Statements about one instruction are about `exec`, which runs with `PC` past the opcode (40_dispatch_tick R118,
R119); `StepRunsDecodedC8` and `StepRunsDecodedGb` carry them to `step`. -/

section Statements

open Sys2Proof Sys2Proof.Machine

/-! ## Encoding -/

/-- Decoding an encoded well-formed instruction gives it back, whatever bytes follow (30_encoding). -/
def Obligations.DecodeOfEncode : Prop :=
  ∀ (i : Instr) (rest : List Byte), i.wellFormed = true →
    decode (archOf i) (encode i ++ rest) = .ok (i, rest)

/-- Bytes that decode are the encoding of what they decode to: each word has one meaning (30_encoding). -/
def Obligations.EncodeOfDecode : Prop :=
  ∀ (arch : Arch) (bytes rest : List Byte) (i : Instr), decode arch bytes = .ok (i, rest) →
    bytes = encode i ++ rest ∧ archOf i = arch ∧ i.wellFormed = true

/-- Words laid out from the encodings of 30_encoding (R81 to R83, R87 to R91), at least one for each family of
the opcode table, decode to the instructions they stand for. -/
def Obligations.WrittenWordsDecode : Prop :=
  decode .chip8 [0x6A, 0x12] = .ok (.c8LdByte 0xA 0x12, []) ∧
  decode .chip8 [0x23, 0x00] = .ok (.c8Call 0x300, []) ∧
  decode .chip8 [0x51, 0x20] = .ok (.c8SeReg 1 2, []) ∧
  decode .chip8 [0x80, 0x14] = .ok (.c8Add 0 1, []) ∧
  decode .chip8 [0x80, 0x0E] = .ok (.c8Shl 0 0, []) ∧
  decode .chip8 [0xD0, 0x15] = .ok (.c8Drw 0 1 5, []) ∧
  decode .chip8 [0xF2, 0x55] = .ok (.c8StoreRegs 2, []) ∧
  decode .gb [0x3E, 0x12] = .ok (.gbLdRN .a 0x12, []) ∧
  decode .gb [0x47] = .ok (.gbLdRR .b .a, []) ∧
  decode .gb [0x76] = .ok (.gbHalt, []) ∧
  decode .gb [0x21, 0x34, 0x12] = .ok (.gbLdPairNn .hl 0x1234, []) ∧
  decode .gb [0x87] = .ok (.gbAddR .a, []) ∧
  decode .gb [0xFE, 0x40] = .ok (.gbCpN 0x40, []) ∧
  decode .gb [0x09] = .ok (.gbAddHl .bc, []) ∧
  decode .gb [0xCA, 0x00, 0x02] = .ok (.gbJpCc .z 0x0200, []) ∧
  decode .gb [0xF5] = .ok (.gbPush .af, []) ∧
  decode .gb [0xCB, 0x67] = .ok (.gbBit 4 .a, [])

/-- No opcode satisfies two rows, but for 0x76 of the GB main table (30_encoding R83, R90, R91), and no match
value has a bit outside its mask (40_dispatch_tick R111). -/
def Obligations.PatternsDisjoint : Prop :=
  (∀ (op : Word), ∀ e ∈ c8Table, ∀ e' ∈ c8Table,
    op &&& e.mask = e.mtch → op &&& e'.mask = e'.mtch → e = e') ∧
  (∀ (op : Word), ∀ e ∈ gbTable, ∀ e' ∈ gbTable,
    op &&& e.mask = e.mtch → op &&& e'.mask = e'.mtch → e = e' ∨ op &&& 0x00FF = 0x0076) ∧
  (∀ (op : Word), ∀ e ∈ cbTable, ∀ e' ∈ cbTable,
    op &&& e.mask = e.mtch → op &&& e'.mask = e'.mtch → e = e') ∧
  (∀ e ∈ c8Table, e.mtch &&& ~~~e.mask = 0) ∧ (∀ e ∈ gbTable, e.mtch &&& ~~~e.mask = 0) ∧
  ∀ e ∈ cbTable, e.mtch &&& ~~~e.mask = 0

/-- The CHIP-8 opcodes that match no row (30_encoding R84). -/
def Obligations.C8UnmatchedOpcodes : Prop :=
  ∀ op : Word, fetch c8Table op = none ↔
    (op.toNat < 0x1000 ∧ op.toNat ≠ 0x00E0 ∧ op.toNat ≠ 0x00EE) ∨
    (op.toNat / 0x1000 = 5 ∧ op.toNat % 16 ≠ 0) ∨
    (op.toNat / 0x1000 = 8 ∧ 8 ≤ op.toNat % 16 ∧ op.toNat % 16 ≠ 0xE) ∨
    (op.toNat / 0x1000 = 9 ∧ op.toNat % 16 ≠ 0) ∨
    (op.toNat / 0x1000 = 0xE ∧ op.toNat % 256 ≠ 0x9E ∧ op.toNat % 256 ≠ 0xA1) ∨
    (op.toNat / 0x1000 = 0xF ∧
      op.toNat % 256 ∉ [0x07, 0x0A, 0x15, 0x18, 0x1E, 0x29, 0x33, 0x55, 0x65])

/-- The GB first bytes and CB sub-opcodes that match no row (30_encoding R92). -/
def Obligations.GbUnmatchedBytes : Prop :=
  (∀ op : Byte, fetch gbTable (op.setWidth 16) = none ↔ op ∈ ([
    0x00, 0x03, 0x13, 0x23, 0x33, 0x0B, 0x1B, 0x2B, 0x3B, 0x04, 0x0C, 0x14, 0x1C, 0x24, 0x2C, 0x34, 0x3C,
    0x05, 0x0D, 0x15, 0x1D, 0x25, 0x2D, 0x35, 0x3D, 0x07, 0x0F, 0x17, 0x1F, 0x08, 0x27, 0x2F, 0x37, 0x3F,
    0xC0, 0xC8, 0xD0, 0xD8, 0xC4, 0xCC, 0xD4, 0xDC, 0xC7, 0xCF, 0xD7, 0xDF, 0xE7, 0xEF, 0xF7, 0xFF, 0xD9,
    0xE0, 0xF0, 0xE2, 0xF2, 0xE8, 0xF8, 0xF9, 0xE9, 0xEA, 0xFA, 0xD3, 0xDB, 0xDD, 0xE3, 0xE4, 0xEB, 0xEC,
    0xED, 0xF4, 0xFC, 0xFD] : List Byte)) ∧
  ∀ sub : Byte, fetch cbTable (sub.setWidth 16) = none ↔ sub.toNat < 0x40

/-! ## Ticks -/

/-- A CHIP-8 Tick runs the instruction that the two bytes at `PC` decode to, with `PC` past them and the raw
opcode recorded (40_dispatch_tick R118). -/
def Obligations.StepRunsDecodedC8 : Prop :=
  ∀ (s : State) (b : C8Block) (i : Instr), AboutToTick s → C8Ready s b → b.status.Running →
    s.chip8.tableBuilt = true → b.pc.toNat ≤ 0xFFE → decode .chip8 b.opcodeBytes = .ok (i, []) →
    ∃ (b₀ : C8Block) (s₀ : State),
      b₀ = { b with
        pc := b.pc + 2,
        status := { b.status with
          lastInstruction := beWord (b.mem.read b.pc.toNat) (b.mem.read (b.pc.toNat + 1)) } } ∧
      C8Done s.taken s₀ b₀ s.reply ∧ C8Ready s₀ b₀ ∧ i.wellFormed = true ∧ step s = exec i s₀

/-- A GB Tick runs the instruction that the bytes at `PC` decode to, with `PC` past the first of them and that
byte recorded (40_dispatch_tick R119). That the operand bytes are decoded with the opcode byte, where R89 has
the handler read them, is the model's (log 8), and so is that the rows of the CB table run directly, where R270
has the prefix's handler look them up (log 9). -/
def Obligations.StepRunsDecodedGb : Prop :=
  ∀ (s : State) (g : GbBlock) (i : Instr) (rest : List Byte), AboutToTick s → GbReady s g →
    g.status.Running → s.gb.tableBuilt = true →
    decode .gb [g.memRead g.pc, g.memRead (g.pc + 1), g.memRead (g.pc + 2)] = .ok (i, rest) →
    ∃ (g₀ : GbBlock) (s₀ : State),
      g₀ = { g with
        pc := g.pc + 1,
        status := { g.status with lastInstruction := (g.memRead g.pc).setWidth 16 } } ∧
      GbDone s.taken s₀ g₀ s.reply ∧ GbReady s₀ g₀ ∧ i.wellFormed = true ∧ step s = exec i s₀

/-- `InvalidOpcode` (60_exceptions R281): an unmatched opcode, an unmatched CB sub-opcode, and every opcode
while the table is empty. `PC` stays past the bytes read and nothing else changes. -/
def Obligations.UnmatchedOpcodeHalts : Prop :=
  (∀ (s : State) (b : C8Block), AboutToTick s → C8Ready s b → b.status.Running → b.pc.toNat ≤ 0xFFE →
    (s.chip8.tableBuilt = false ∨ fetch c8Table b.opcode = none) →
    C8Completes s.taken (step s)
      { b with pc := b.pc + 2, status := haltedStatus 0xFFFF .invalidOpcode b.opcode } 0) ∧
  (∀ (s : State) (g : GbBlock), AboutToTick s → GbReady s g → g.status.Running →
    (s.gb.tableBuilt = false ∨ fetch gbTable ((g.memRead g.pc).setWidth 16) = none) →
    ∃ t, step s = .next t ∧ GbDone s.taken t
      { g with
        pc := g.pc + 1,
        status := haltedStatus 0xFFFF .invalidOpcode ((g.memRead g.pc).setWidth 16) } (.cycles 0)) ∧
  ∀ (s : State) (g : GbBlock) (sub : Byte), AboutToTick s → GbReady s g → g.status.Running →
    s.gb.tableBuilt = true → g.memRead g.pc = 0xCB → g.memRead (g.pc + 1) = sub →
    fetch cbTable (sub.setWidth 16) = none →
    ∃ t, step s = .next t ∧ GbDone s.taken t
      { g with
        pc := g.pc + 2,
        status := haltedStatus 0xFFFF .invalidOpcode (BitVec.ofNat 16 (0xCB00 + sub.toNat)) } (.cycles 0)

/-- `BusFault` (60_exceptions R282): by the instruction read above 0xFFE, and by the four memory instructions
when a byte they would access lies above 0xFFF. -/
def Obligations.BusFaults : Prop :=
  (∀ (s : State) (b : C8Block), AboutToTick s → C8Ready s b → b.status.Running → 0xFFE < b.pc.toNat →
    C8Completes s.taken (step s)
      { b with status := haltedStatus 0xFFFF .busFault (BitVec.ofNat 16 (max b.pc.toNat 0x1000)) } 0) ∧
  ∀ (s : State) (b : C8Block) (i : Instr) (n : Nat), AboutToTick s → C8Ready s b → b.status.Running →
    s.chip8.tableBuilt = true → b.pc.toNat ≤ 0xFFE → decode .chip8 b.opcodeBytes = .ok (i, []) →
    ((∃ x y k, i = .c8Drw x y k ∧ n = k.toNat) ∨ (∃ x, i = .c8LdB x ∧ n = 3) ∨
      (∃ x, i = .c8StoreRegs x ∧ n = x.toNat + 1) ∨ ∃ x, i = .c8LoadRegs x ∧ n = x.toNat + 1) →
    (∃ k, k < n ∧ 0xFFF < b.i.toNat + k) →
    C8Completes s.taken (step s)
      { b with
        pc := b.pc + 2,
        status := haltedStatus b.opcode .busFault (BitVec.ofNat 16 (max b.i.toNat 0x1000)) } 0

/-- `StackFault` (60_exceptions R283): `CALL` with 16 slots in use and `RET` with none. -/
def Obligations.StackFaults : Prop :=
  ∀ (s : State) (b : C8Block) (i : Instr), AboutToTick s → C8Ready s b → b.status.Running →
    s.chip8.tableBuilt = true → b.pc.toNat ≤ 0xFFE → decode .chip8 b.opcodeBytes = .ok (i, []) →
    ((∃ nnn, i = .c8Call nnn) ∧ b.sp = 16 ∨ i = .c8Ret ∧ b.sp = 0) →
    C8Completes s.taken (step s)
      { b with pc := b.pc + 2, status := haltedStatus b.opcode .stackFault b.opcode } 0

/-- A Tick of a halted block returns 0 and changes no state of the block (40_dispatch_tick R121, 60_exceptions
R288). -/
def Obligations.HaltedTickChangesNothing : Prop :=
  (∀ (s : State) (b : C8Block), AboutToTick s → C8Ready s b → b.status.run = .halted →
    step s = .next { s.taken with reply := .cycles 0 }) ∧
  ∀ (s : State) (g : GbBlock), AboutToTick s → GbReady s g → g.status.run = .halted →
    step s = .next { s.taken with reply := .cycles 0 }

/-- What a Tick returns (40_dispatch_tick R122): a count, which is 0 exactly when the session is halted. That
it stands in the field `reply` is the model's (log 6). -/
def Obligations.ReplyZeroIffHalted : Prop :=
  ∀ s t : State, AboutToTick s → step s = .next t →
    ∃ n, t.reply = .cycles n ∧
      (∀ b, C8Ready t b → (n = 0 ↔ b.status.run = .halted)) ∧
      ∀ g, GbReady t g → (n = 0 ↔ g.status.run = .halted)

/-- `lastInstruction` after a Tick (40_dispatch_tick R123, from R118 and R119). -/
def Obligations.LastInstructionRecorded : Prop :=
  (∀ (s t : State) (b b' : C8Block), AboutToTick s → C8Ready s b → step s = .next t → C8Ready t b' →
    b'.status.lastInstruction =
      if b.status.run = .halted then b.status.lastInstruction
      else if b.pc.toNat ≤ 0xFFE ∧ s.chip8.tableBuilt = true ∧ fetch c8Table b.opcode ≠ none then b.opcode
      else 0xFFFF) ∧
  ∀ (s t : State) (g g' : GbBlock), AboutToTick s → GbReady s g → step s = .next t → GbReady t g' →
    g'.status.lastInstruction =
      if g.status.run = .halted then g.status.lastInstruction
      else if s.gb.tableBuilt = true ∧ fetch gbTable ((g.memRead g.pc).setWidth 16) ≠ none ∧
        (g.memRead g.pc = 0xCB → fetch cbTable ((g.memRead (g.pc + 1)).setWidth 16) ≠ none)
      then (g.memRead g.pc).setWidth 16
      else 0xFFFF

/-- Halts are precise (60_exceptions R284): a Tick that takes a session from running to halted changes
nothing of the block but `PC` and the run state, and returns 0. -/
def Obligations.HaltsArePrecise : Prop :=
  (∀ (s t : State) (b b' : C8Block), AboutToTick s → C8Ready s b → b.status.Running →
    step s = .next t → C8Ready t b' → b'.status.run = .halted →
    t.reply = .cycles 0 ∧ b'.status.haltCause ≠ .none ∧
      b' = { b with pc := b'.pc, status := b'.status }) ∧
  ∀ (s t : State) (g g' : GbBlock), AboutToTick s → GbReady s g → g.status.Running →
    step s = .next t → GbReady t g' → g'.status.run = .halted →
    t.reply = .cycles 0 ∧ g'.status.haltCause ≠ .none ∧
      g' = { g with pc := g'.pc, status := g'.status }

/-- No operation takes a live block out of the halted state or changes the cause kept (10_state R13, R15,
60_exceptions R288). -/
def Obligations.HaltIsTerminal : Prop :=
  (∀ (s t : State) (id : Nat) (b b' : C8Block), s.chip8.blocks.lookup id = some b →
    b.status.run = .halted → step s = .next t → t.chip8.blocks.lookup id = some b' →
    b'.status = b.status) ∧
  ∀ (s t : State) (id : Nat) (g g' : GbBlock), s.gb.blocks.lookup id = some g →
    g.status.run = .halted → step s = .next t → t.gb.blocks.lookup id = some g' →
    g'.status = g.status

/-! ## Invariants and reset -/

/-- Every step keeps the invariants of 10_state R36: CHIP-8 `SP` at most 16, GB `F[3:0]` 0 (in every block and in
the `GB_RESET` that new blocks are made from), halted exactly when there is a cause, the sentinel after an invalid
opcode, memory canonical, `ctx` none or a live block. -/
def Obligations.StepKeepsGood : Prop := ∀ s t : State, s.Good → step s = .next t → t.Good

/-- The state after reset meets those invariants. That it has one block of each core is the model's (log 2), and
so is that `GB_RESET` has its default values there (log 24). -/
def Obligations.ResetIsGood : Prop := State.reset.Good

/-- The reset values of both blocks (10_state R33, R34), of the table and of `ctx` (R11, R12). That the reset
machine has one block of each core, with identity 0, is the model's (log 2), and so is that the argument
`GB_RESET` of R34 has its default values there (log 24). -/
def Obligations.ResetValues : Prop :=
  (∃ b : C8Block, State.reset.chip8.blocks.lookup 0 = some b ∧ (∀ a, b.mem.read a = 0) ∧
    (∀ x, b.getV x = 0) ∧ b.i = 0 ∧ b.pc = 0x0200 ∧ b.sp = 0 ∧
    (∀ k, k < 16 → b.stack[k]? = some 0) ∧ b.dt = 0 ∧ b.st = 0 ∧
    (∀ px py, Display.cell b.disp px py = false) ∧ b.key = 0xFF ∧
    b.status = { run := .running, lastInstruction := 0xFFFF, haltCause := .none, haltInfo := 0 }) ∧
  (∃ g : GbBlock, State.reset.gb.blocks.lookup 0 = some g ∧ (∀ a, g.mem.read a = 0) ∧
    g.a = 0 ∧ g.b = 0 ∧ g.c = 0 ∧ g.d = 0 ∧ g.e = 0 ∧ g.h = 0 ∧ g.l = 0 ∧ g.f = 0 ∧
    g.pc = 0 ∧ g.sp = 0xFFFE ∧ g.ime = false ∧ g.key = 0xFF ∧
    g.status = { run := .running, lastInstruction := 0xFFFF, haltCause := .none, haltInfo := 0 }) ∧
  State.reset.chip8.tableBuilt = false ∧ State.reset.chip8.ctx = none ∧
  State.reset.gb.tableBuilt = false ∧ State.reset.gb.ctx = none

/-! ## What a handler may touch -/

/-- A handler reads and writes only the active block (40_dispatch_tick R117, 60_exceptions R291): no
instruction reaches the table, `ctx`, another block, the other core or the host's schedule. No operation at all
writes the parameters `ARCH`, `GB_RESET` and `GB_CYCLES` (10_state R35; that they stand in the state is the
model's, logs 1, 15 and 24). -/
def Obligations.HandlersTouchOnlyTheActiveBlock : Prop :=
  (∀ (i : Instr) (s t : State), exec i s = .next t →
    s.chip8.SameButActive t.chip8 ∧ s.gb.SameButActive t.gb ∧
    (archOf i = .chip8 → t.gb = s.gb) ∧ (archOf i = .gb → t.chip8 = s.chip8) ∧
    t.arch = s.arch ∧ t.gbParams = s.gbParams ∧ t.inbox = s.inbox ∧ t.allocs = s.allocs ∧
    ((∀ x kk, i ≠ .c8Rnd x kk) → t.draws = s.draws)) ∧
  ∀ s t : State, step s = .next t → t.arch = s.arch ∧ t.gbParams = s.gbParams

/-- Which CHIP-8 instructions write each register and each other field of the block (10_state R16 to R24), and
which halt (60_exceptions R282, R283). -/
def Obligations.C8WritersOfEachField : Prop :=
  ∀ (i : Instr) (s t : State) (b b' : C8Block), C8Ready s b → exec i s = .next t → C8Ready t b' →
    (∀ j, b'.getV j = b.getV j ∨ (∃ kk, i ∈ [.c8LdByte j kk, .c8AddByte j kk, .c8Rnd j kk]) ∨
      (∃ y, i ∈ [.c8LdReg j y, .c8Or j y, .c8And j y, .c8Xor j y, .c8Add j y, .c8Sub j y, .c8Shr j y,
        .c8Subn j y, .c8Shl j y]) ∨
      i ∈ [.c8LdVxDt j, .c8LdVxK j] ∨ (∃ x, i = .c8LoadRegs x ∧ j ≤ x) ∨
      j = 15 ∧ ((∃ x y, i ∈ [.c8Add x y, .c8Sub x y, .c8Shr x y, .c8Subn x y, .c8Shl x y]) ∨
        ∃ x y n, i = .c8Drw x y n)) ∧
    (b'.pc = b.pc ∨ (∃ n, i ∈ [.c8Jp n, .c8Call n, .c8JpV0 n]) ∨ i = .c8Ret ∨
      (∃ x kk, i ∈ [.c8SeByte x kk, .c8SneByte x kk]) ∨ (∃ x y, i ∈ [.c8SeReg x y, .c8SneReg x y]) ∨
      ∃ x, i ∈ [.c8Skp x, .c8Sknp x, .c8LdVxK x]) ∧
    (b'.i = b.i ∨ (∃ n, i = .c8LdI n) ∨ (∃ x, i = .c8AddI x) ∨ ∃ x, i = .c8LdF x) ∧
    (b'.sp = b.sp ∨ (∃ n, i = .c8Call n) ∨ i = .c8Ret) ∧
    (b'.stack = b.stack ∨ ∃ n, i = .c8Call n) ∧
    (b'.dt = b.dt ∨ ∃ x, i = .c8LdDtVx x) ∧
    (b'.st = b.st ∨ ∃ x, i = .c8LdStVx x) ∧
    (b'.disp = b.disp ∨ i = .c8Cls ∨ ∃ x y n, i = .c8Drw x y n) ∧
    (b'.mem = b.mem ∨ (∃ x, i = .c8LdB x) ∨ ∃ x, i = .c8StoreRegs x) ∧
    b'.key = b.key ∧ b'.status.lastInstruction = b.status.lastInstruction ∧
    (b'.status = b.status ∨
      (b'.status.haltCause = .busFault ∧
        ((∃ x y n, i = .c8Drw x y n) ∨ ∃ x, i ∈ [.c8LdB x, .c8StoreRegs x, .c8LoadRegs x])) ∨
      (b'.status.haltCause = .stackFault ∧ ((∃ n, i = .c8Call n) ∨ i = .c8Ret)))

/-- Which GB instructions write each register, the flags, `PC`, memory and each other field of the block (10_state
R25 to R32), and which halt (60_exceptions R280, R290). `PC` stands past the opcode byte; an instruction that is
no transfer leaves it past its operand bytes (30_encoding R89). The clauses about `gbPrefixCb` name the row of
the CB table that its sub-opcode selects (47_gb_cb R270, log 9). -/
def Obligations.GbWritersOfEachField : Prop :=
  ∀ (i : Instr) (s t : State) (g g' : GbBlock), GbReady s g → exec i s = .next t → GbReady t g' →
    (∀ r, r ≠ .hlMem → g'.getR r = g.getR r ∨ (∃ src, i = .gbLdRR r src) ∨ (∃ n, i = .gbLdRN r n) ∨
      (∃ p nn, i = .gbLdPairNn p nn ∧ fieldOfReg r ∈ fieldsOfPair p) ∨
      (∃ p, i = .gbPop p ∧ fieldOfReg r ∈ fieldsOfStackPair p) ∨
      (∃ k, i ∈ [.gbRes k r, .gbSet k r]) ∨
      (∃ sub, i = .gbPrefixCb sub ∧ 0x80 ≤ sub.toNat ∧ reg8Of (BitVec.ofNat 3 sub.toNat) = r) ∨
      (r ∈ [.h, .l] ∧ (i ∈ [.gbLdiHlA, .gbLddHlA, .gbLdiAHl, .gbLddAHl] ∨ ∃ p, i = .gbAddHl p)) ∨
      (r = .a ∧ (i ∈ [.gbLdABc, .gbLdADe, .gbLdiAHl, .gbLddAHl] ∨
        (∃ q, i ∈ [.gbAddR q, .gbAdcR q, .gbSubR q, .gbSbcR q, .gbAndR q, .gbXorR q, .gbOrR q]) ∨
        ∃ n, i ∈ [.gbAddN n, .gbAdcN n, .gbSubN n, .gbSbcN n, .gbAndN n, .gbXorN n, .gbOrN n]))) ∧
    (g'.f = g.f ∨ i = .gbPop .af ∨ (∃ p, i = .gbAddHl p) ∨
      (∃ q, i ∈ [.gbAddR q, .gbAdcR q, .gbSubR q, .gbSbcR q, .gbAndR q, .gbXorR q, .gbOrR q, .gbCpR q]) ∨
      (∃ n, i ∈ [.gbAddN n, .gbAdcN n, .gbSubN n, .gbSbcN n, .gbAndN n, .gbXorN n, .gbOrN n, .gbCpN n]) ∨
      (∃ k r, i = .gbBit k r) ∨ ∃ sub, i = .gbPrefixCb sub ∧ 0x40 ≤ sub.toNat ∧ sub.toNat < 0x80) ∧
    (g'.pc = g.pc + BitVec.ofNat 16 ((encode i).length - 1) ∨ (∃ nn, i ∈ [.gbJp nn, .gbCall nn]) ∨
      (∃ cc nn, i = .gbJpCc cc nn) ∨ (∃ e, i = .gbJr e) ∨ (∃ cc e, i = .gbJrCc cc e) ∨ i = .gbRet) ∧
    (g'.sp = g.sp ∨ (∃ nn, i = .gbLdPairNn .sp nn) ∨ (∃ p, i = .gbPush p) ∨ (∃ p, i = .gbPop p) ∨
      (∃ nn, i = .gbCall nn) ∨ i = .gbRet) ∧
    (g'.mem = g.mem ∨ i ∈ [.gbLdBcA, .gbLdDeA, .gbLdiHlA, .gbLddHlA] ∨
      (∃ src, i = .gbLdRR .hlMem src) ∨ (∃ n, i = .gbLdRN .hlMem n) ∨
      (∃ k, i ∈ [.gbRes k .hlMem, .gbSet k .hlMem]) ∨
      (∃ sub, i = .gbPrefixCb sub ∧ 0x80 ≤ sub.toNat ∧ reg8Of (BitVec.ofNat 3 sub.toNat) = .hlMem) ∨
      (∃ p, i = .gbPush p) ∨ ∃ nn, i = .gbCall nn) ∧
    (g'.ime = g.ime ∨ i = .gbDi ∨ i = .gbEi) ∧
    g'.key = g.key ∧
    (g'.status = g.status ∨ i = .gbHalt ∨ i = .gbStop ∨
      ∃ sub, i = .gbPrefixCb sub ∧ sub.toNat < 0x40)

/-- The loads, stores and control transfers write no flag, but for `POP AF` (44_gb_load, 46_gb_control), and
`RES` and `SET` write none (47_gb_cb R272, R273). -/
def Obligations.GbFlagsKept : Prop :=
  ∀ (i : Instr) (s t : State) (g g' : GbBlock), GbReady s g → exec i s = .next t → GbReady t g' →
    ((∃ dst r, i = .gbLdRR dst r) ∨ (∃ dst n, i = .gbLdRN dst n) ∨ (∃ p nn, i = .gbLdPairNn p nn) ∨
      i ∈ [.gbLdBcA, .gbLdDeA, .gbLdiHlA, .gbLddHlA, .gbLdABc, .gbLdADe, .gbLdiAHl, .gbLddAHl, .gbRet,
        .gbHalt, .gbStop, .gbDi, .gbEi] ∨
      (∃ p, i = .gbPush p) ∨ (∃ p, i = .gbPop p ∧ p ≠ .af) ∨ (∃ nn, i = .gbJp nn) ∨
      (∃ cc nn, i = .gbJpCc cc nn) ∨ (∃ e, i = .gbJr e) ∨ (∃ cc e, i = .gbJrCc cc e) ∨
      (∃ nn, i = .gbCall nn) ∨ (∃ k r, i = .gbRes k r) ∨ ∃ k r, i = .gbSet k r) →
    g'.f = g.f

/-! ## CHIP-8 instructions

A handler that ends normally reports the count 1 of 00_scope R6 and 40_dispatch_tick R125. That `C8_CYCLES` is fixed
and no argument is the model's choice (log 29). -/

/-- `LD Vx,kk`, `LD Vx,Vy`, `LD Vx,DT` (42_chip8_alu R161, R163; 43_chip8_io_mem R184). -/
def Obligations.C8RegisterLoads : Prop :=
  ∀ (s : State) (b : C8Block) (x y : BitVec 4) (kk : Byte), C8Ready s b →
    (∃ b', C8Completes s (exec (.c8LdByte x kk) s) b' 1 ∧ C8Frame [.v] b b' ∧
      ∀ j, b'.getV j = if j = x then kk else b.getV j) ∧
    (∃ b', C8Completes s (exec (.c8LdReg x y) s) b' 1 ∧ C8Frame [.v] b b' ∧
      ∀ j, b'.getV j = if j = x then b.getV y else b.getV j) ∧
    ∃ b', C8Completes s (exec (.c8LdVxDt x) s) b' 1 ∧ C8Frame [.v] b b' ∧
      ∀ j, b'.getV j = if j = x then b.dt else b.getV j

/-- `OR`, `AND`, `XOR` and the immediate add, none of which writes VF as a flag (42_chip8_alu R162, R164 to
R166). -/
def Obligations.C8LogicAndImmediateAdd : Prop :=
  ∀ (s : State) (b : C8Block) (x y : BitVec 4) (kk : Byte), C8Ready s b →
    (∃ b', C8Completes s (exec (.c8Or x y) s) b' 1 ∧ C8Frame [.v] b b' ∧
      ∀ j, b'.getV j = if j = x then b.getV x ||| b.getV y else b.getV j) ∧
    (∃ b', C8Completes s (exec (.c8And x y) s) b' 1 ∧ C8Frame [.v] b b' ∧
      ∀ j, b'.getV j = if j = x then b.getV x &&& b.getV y else b.getV j) ∧
    (∃ b', C8Completes s (exec (.c8Xor x y) s) b' 1 ∧ C8Frame [.v] b b' ∧
      ∀ j, b'.getV j = if j = x then b.getV x ^^^ b.getV y else b.getV j) ∧
    ∃ b', C8Completes s (exec (.c8AddByte x kk) s) b' 1 ∧ C8Frame [.v] b b' ∧
      ∀ j, (b'.getV j).toNat = if j = x then ((b.getV x).toNat + kk.toNat) % 256 else (b.getV j).toNat

/-- `ADD Vx,Vy`, `SUB`, `SUBN`, `SHR`, `SHL`: the result, then the flag in VF, so that the flag is what
remains when x is 15 (42_chip8_alu R160, R167 to R171). -/
def Obligations.C8FlagArithmetic : Prop :=
  ∀ (s : State) (b : C8Block) (x y : BitVec 4) (p q : Nat), C8Ready s b →
    p = (b.getV x).toNat → q = (b.getV y).toNat →
    (∃ b', C8Completes s (exec (.c8Add x y) s) b' 1 ∧ C8Frame [.v] b b' ∧
      ∀ j, (b'.getV j).toNat = if j = 15 then (if p + q > 255 then 1 else 0)
        else if j = x then (p + q) % 256 else (b.getV j).toNat) ∧
    (∃ b', C8Completes s (exec (.c8Sub x y) s) b' 1 ∧ C8Frame [.v] b b' ∧
      ∀ j, ((b'.getV j).toNat : Int) = if j = 15 then (if p ≥ q then 1 else 0)
        else if j = x then ((p : Int) - q) % 256 else ((b.getV j).toNat : Int)) ∧
    (∃ b', C8Completes s (exec (.c8Subn x y) s) b' 1 ∧ C8Frame [.v] b b' ∧
      ∀ j, ((b'.getV j).toNat : Int) = if j = 15 then (if q ≥ p then 1 else 0)
        else if j = x then ((q : Int) - p) % 256 else ((b.getV j).toNat : Int)) ∧
    (∃ b', C8Completes s (exec (.c8Shr x y) s) b' 1 ∧ C8Frame [.v] b b' ∧
      ∀ j, (b'.getV j).toNat = if j = 15 then p % 2
        else if j = x then p / 2 else (b.getV j).toNat) ∧
    ∃ b', C8Completes s (exec (.c8Shl x y) s) b' 1 ∧ C8Frame [.v] b b' ∧
      ∀ j, (b'.getV j).toNat = if j = 15 then p / 128
        else if j = x then p * 2 % 256 else (b.getV j).toNat

/-- `LD I,nnn`, `ADD I,Vx`, `LD F,Vx` (42_chip8_alu R172, R174; 43_chip8_io_mem R188). -/
def Obligations.C8IndexWrites : Prop :=
  ∀ (s : State) (b : C8Block) (x : BitVec 4) (nnn : BitVec 12), C8Ready s b →
    (∃ b', C8Completes s (exec (.c8LdI nnn) s) b' 1 ∧ C8Frame [.i] b b' ∧ b'.i.toNat = nnn.toNat) ∧
    (∃ b', C8Completes s (exec (.c8AddI x) s) b' 1 ∧ C8Frame [.i] b b' ∧
      b'.i.toNat = (b.i.toNat + (b.getV x).toNat) % 65536) ∧
    ∃ b', C8Completes s (exec (.c8LdF x) s) b' 1 ∧ C8Frame [.i] b b' ∧
      b'.i.toNat = 5 * ((b.getV x).toNat % 16)

/-- `RND Vx,kk` (42_chip8_alu R173). That the draw is the next of `Config.draw` and that the counter moves by
one are the model's (log 4); the statement holds for every such function. -/
def Obligations.C8RandomByte : Prop :=
  ∀ (s : State) (b : C8Block) (x : BitVec 4) (kk : Byte), C8Ready s b →
    ∃ b', C8Completes { s with draws := s.draws + 1 } (exec (.c8Rnd x kk) s) b' 1 ∧ C8Frame [.v] b b' ∧
      ∀ j, b'.getV j = if j = x then Config.draw s.draws &&& kk else b.getV j

/-- `JP nnn`, `JP V0,nnn` (41_chip8_control R141, R143). -/
def Obligations.C8Jumps : Prop :=
  ∀ (s : State) (b : C8Block) (nnn : BitVec 12), C8Ready s b →
    (∃ b', C8Completes s (exec (.c8Jp nnn) s) b' 1 ∧ C8Frame [.pc] b b' ∧ b'.pc.toNat = nnn.toNat) ∧
    ∃ b', C8Completes s (exec (.c8JpV0 nnn) s) b' 1 ∧ C8Frame [.pc] b b' ∧
      b'.pc.toNat = nnn.toNat + (b.getV 0).toNat

/-- The six skips (41_chip8_control R144 to R147; 43_chip8_io_mem R182, R183). -/
def Obligations.C8Skips : Prop :=
  ∀ (s : State) (b : C8Block) (i : Instr) (taken : Prop), C8Ready s b →
    ((∃ x kk, i = .c8SeByte x kk ∧ (taken ↔ b.getV x = kk)) ∨
      (∃ x kk, i = .c8SneByte x kk ∧ (taken ↔ b.getV x ≠ kk)) ∨
      (∃ x y, i = .c8SeReg x y ∧ (taken ↔ b.getV x = b.getV y)) ∨
      (∃ x y, i = .c8SneReg x y ∧ (taken ↔ b.getV x ≠ b.getV y)) ∨
      (∃ x, i = .c8Skp x ∧ (taken ↔ b.key = b.getV x)) ∨
      ∃ x, i = .c8Sknp x ∧ (taken ↔ b.key ≠ b.getV x)) →
    ∃ b', C8Completes s (exec i s) b' 1 ∧ C8Frame [.pc] b b' ∧
      (taken → b'.pc = b.pc + 2) ∧ (¬ taken → b'.pc = b.pc)

/-- `CALL nnn` and `RET` with their stack faults (41_chip8_control R140, R142). `SP` is at most 16 by
`StepKeepsGood`. -/
def Obligations.C8CallAndReturn : Prop :=
  ∀ (s : State) (b : C8Block) (nnn : BitVec 12), C8Ready s b →
    (b.sp.toNat < 16 → ∃ b', C8Completes s (exec (.c8Call nnn) s) b' 1 ∧
      C8Frame [.stack, .sp, .pc] b b' ∧ b'.pc.toNat = nnn.toNat ∧ b'.sp.toNat = b.sp.toNat + 1 ∧
      ∀ k, k < 16 → b'.stack[k]? = if k = b.sp.toNat then some b.pc else b.stack[k]?) ∧
    (b.sp = 16 →
      C8Halts s (exec (.c8Call nnn) s) b .stackFault (BitVec.ofNat 16 (0x2000 + nnn.toNat))) ∧
    (0 < b.sp.toNat → b.sp.toNat ≤ 16 → ∃ b', C8Completes s (exec .c8Ret s) b' 1 ∧
      C8Frame [.sp, .pc] b b' ∧ b'.sp.toNat = b.sp.toNat - 1 ∧
      b.stack[b.sp.toNat - 1]? = some b'.pc) ∧
    (b.sp = 0 → C8Halts s (exec .c8Ret s) b .stackFault 0x00EE)

/-- A `RET` after a `CALL` gives back the `PC` that followed the `CALL`, and `SP` (41_chip8_control R142). -/
def Obligations.C8ReturnAfterCall : Prop :=
  ∀ (s : State) (b : C8Block) (nnn : BitVec 12), C8Ready s b → b.sp.toNat < 16 →
    ∃ t u b', exec (.c8Call nnn) s = .next t ∧ exec .c8Ret t = .next u ∧ C8Ready u b' ∧
      C8Frame [.stack] b b'

/-- `CLS` (43_chip8_io_mem R180). -/
def Obligations.C8ClearScreen : Prop :=
  ∀ (s : State) (b : C8Block), C8Ready s b →
    ∃ b', C8Completes s (exec .c8Cls s) b' 1 ∧ C8Frame [.disp] b b' ∧
      ∀ px py, px < 64 → py < 32 → Display.cell b'.disp px py = false

/-- `DRW Vx,Vy,n` (43_chip8_io_mem R181): exactly the pixels under the sprite's set bits are inverted, VF says
that one of them was set, and a sprite that reaches above 0xFFF faults. -/
def Obligations.C8DrawSprite : Prop :=
  ∀ (s : State) (b : C8Block) (x y n : BitVec 4), C8Ready s b →
    (n = 0 ∨ b.i.toNat + n.toNat ≤ 0x1000 → ∃ b', C8Completes s (exec (.c8Drw x y n) s) b' 1 ∧
      C8Frame [.v, .disp] b b' ∧
      (∀ px py, px < 64 → py < 32 → (Display.cell b'.disp px py ≠ Display.cell b.disp px py ↔
        SpriteCovers b.mem b.i.toNat n.toNat ((b.getV x).toNat % 64) ((b.getV y).toNat % 32) px py)) ∧
      (∀ j, j ≠ 15 → b'.getV j = b.getV j) ∧ (b'.getV 15 = 0 ∨ b'.getV 15 = 1) ∧
      (b'.getV 15 = 1 ↔ ∃ px py, px < 64 ∧ py < 32 ∧ Display.cell b.disp px py = true ∧
        Display.cell b'.disp px py = false)) ∧
    (n ≠ 0 → 0x1000 < b.i.toNat + n.toNat →
      C8Halts s (exec (.c8Drw x y n) s) b .busFault (BitVec.ofNat 16 (max b.i.toNat 0x1000)))

/-- `LD DT,Vx`, `LD ST,Vx`, and `LD Vx,K`: the latch, or a wait with `PC` back onto the instruction
(43_chip8_io_mem R185 to R187). -/
def Obligations.C8TimerWritesAndKeyWait : Prop :=
  ∀ (s : State) (b : C8Block) (x : BitVec 4), C8Ready s b →
    (∃ b', C8Completes s (exec (.c8LdDtVx x) s) b' 1 ∧ C8Frame [.dt] b b' ∧ b'.dt = b.getV x) ∧
    (∃ b', C8Completes s (exec (.c8LdStVx x) s) b' 1 ∧ C8Frame [.st] b b' ∧ b'.st = b.getV x) ∧
    ∃ b', C8Completes s (exec (.c8LdVxK x) s) b' 1 ∧
      (b.key ≠ 0xFF → C8Frame [.v] b b' ∧ ∀ j, b'.getV j = if j = x then b.key else b.getV j) ∧
      (b.key = 0xFF → C8Frame [.pc] b b' ∧ b'.pc = b.pc - 2)

/-- `LD B,Vx` (43_chip8_io_mem R189). -/
def Obligations.C8DecimalStore : Prop :=
  ∀ (s : State) (b : C8Block) (x : BitVec 4), C8Ready s b →
    (b.i.toNat + 2 ≤ 0xFFF → ∃ b', C8Completes s (exec (.c8LdB x) s) b' 1 ∧ C8Frame [.mem] b b' ∧
      (b'.mem.read b.i.toNat).toNat = (b.getV x).toNat / 100 ∧
      (b'.mem.read (b.i.toNat + 1)).toNat = (b.getV x).toNat / 10 % 10 ∧
      (b'.mem.read (b.i.toNat + 2)).toNat = (b.getV x).toNat % 10 ∧
      SameOutside [b.i.toNat, b.i.toNat + 1, b.i.toNat + 2] b.mem b'.mem) ∧
    (0xFFF < b.i.toNat + 2 →
      C8Halts s (exec (.c8LdB x) s) b .busFault (BitVec.ofNat 16 (max b.i.toNat 0x1000)))

/-- `LD [I],Vx` (43_chip8_io_mem R190): V0 to Vx, `I` unchanged, every other byte as it was. -/
def Obligations.C8StoreRegisters : Prop :=
  ∀ (s : State) (b : C8Block) (x : BitVec 4), C8Ready s b →
    (b.i.toNat + x.toNat ≤ 0xFFF → ∃ b', C8Completes s (exec (.c8StoreRegs x) s) b' 1 ∧
      C8Frame [.mem] b b' ∧
      (∀ j : BitVec 4, j ≤ x → b'.mem.read (b.i.toNat + j.toNat) = b.getV j) ∧
      ∀ a, a < b.i.toNat ∨ b.i.toNat + x.toNat < a → b'.mem.read a = b.mem.read a) ∧
    (0xFFF < b.i.toNat + x.toNat →
      C8Halts s (exec (.c8StoreRegs x) s) b .busFault (BitVec.ofNat 16 (max b.i.toNat 0x1000)))

/-- `LD Vx,[I]` (43_chip8_io_mem R191): V0 to Vx, `I` unchanged. -/
def Obligations.C8LoadRegisters : Prop :=
  ∀ (s : State) (b : C8Block) (x : BitVec 4), C8Ready s b →
    (b.i.toNat + x.toNat ≤ 0xFFF → ∃ b', C8Completes s (exec (.c8LoadRegs x) s) b' 1 ∧
      C8Frame [.v] b b' ∧
      ∀ j : BitVec 4, b'.getV j = if j ≤ x then b.mem.read (b.i.toNat + j.toNat) else b.getV j) ∧
    (0xFFF < b.i.toNat + x.toNat →
      C8Halts s (exec (.c8LoadRegs x) s) b .busFault (BitVec.ofNat 16 (max b.i.toNat 0x1000)))

/-! ## GB instructions -/

/-- `LD r,r'`, `LD r,(HL)`, `LD (HL),r`, `LD r,n`, `LD (HL),n` (44_gb_load R200 to R202): the source is read
first, and a memory destination is the byte at the old `HL`. -/
def Obligations.GbLoads8 : Prop :=
  ∀ (s : State) (g : GbBlock) (i : Instr) (dst : Reg8) (v : Byte) (len : Word), GbReady s g →
    ((∃ src, i = .gbLdRR dst src ∧ v = g.getR src ∧ len = 0) ∨ (i = .gbLdRN dst v ∧ len = 1)) →
    ∃ g', GbCompletes s (exec i s) g' ∧ GbFrame [fieldOfReg dst, .pc] g g' ∧ g'.pc = g.pc + len ∧
      (dst ≠ .hlMem → g'.getR dst = v) ∧
      (dst = .hlMem → g'.mem.read g.hl.toNat = v ∧ SameOutside [g.hl.toNat] g.mem g'.mem)

/-- `LD rr,nn` (44_gb_load R203). -/
def Obligations.GbLoads16 : Prop :=
  ∀ (s : State) (g : GbBlock) (nn : Word), GbReady s g →
    (∃ g', GbCompletes s (exec (.gbLdPairNn .bc nn) s) g' ∧ GbFrame [.b, .c, .pc] g g' ∧
      g'.pc = g.pc + 2 ∧ g'.b.toNat = nn.toNat / 256 ∧ g'.c.toNat = nn.toNat % 256) ∧
    (∃ g', GbCompletes s (exec (.gbLdPairNn .de nn) s) g' ∧ GbFrame [.d, .e, .pc] g g' ∧
      g'.pc = g.pc + 2 ∧ g'.d.toNat = nn.toNat / 256 ∧ g'.e.toNat = nn.toNat % 256) ∧
    (∃ g', GbCompletes s (exec (.gbLdPairNn .hl nn) s) g' ∧ GbFrame [.h, .l, .pc] g g' ∧
      g'.pc = g.pc + 2 ∧ g'.h.toNat = nn.toNat / 256 ∧ g'.l.toNat = nn.toNat % 256) ∧
    ∃ g', GbCompletes s (exec (.gbLdPairNn .sp nn) s) g' ∧ GbFrame [.sp, .pc] g g' ∧
      g'.pc = g.pc + 2 ∧ g'.sp = nn

/-- `LD (BC),A`, `LD (DE),A`, `LDI (HL),A`, `LDD (HL),A` (44_gb_load R204 to R207). -/
def Obligations.GbIndirectStores : Prop :=
  ∀ (s : State) (g : GbBlock), GbReady s g →
    (∃ g', GbCompletes s (exec .gbLdBcA s) g' ∧ GbFrame [.mem] g g' ∧
      g'.mem.read g.bc.toNat = g.a ∧ SameOutside [g.bc.toNat] g.mem g'.mem) ∧
    (∃ g', GbCompletes s (exec .gbLdDeA s) g' ∧ GbFrame [.mem] g g' ∧
      g'.mem.read g.de.toNat = g.a ∧ SameOutside [g.de.toNat] g.mem g'.mem) ∧
    (∃ g', GbCompletes s (exec .gbLdiHlA s) g' ∧ GbFrame [.mem, .h, .l] g g' ∧
      g'.mem.read g.hl.toNat = g.a ∧ SameOutside [g.hl.toNat] g.mem g'.mem ∧ g'.hl = g.hl + 1) ∧
    ∃ g', GbCompletes s (exec .gbLddHlA s) g' ∧ GbFrame [.mem, .h, .l] g g' ∧
      g'.mem.read g.hl.toNat = g.a ∧ SameOutside [g.hl.toNat] g.mem g'.mem ∧ g'.hl = g.hl - 1

/-- `LD A,(BC)`, `LD A,(DE)`, `LDI A,(HL)`, `LDD A,(HL)` (44_gb_load R208 to R211). -/
def Obligations.GbIndirectLoads : Prop :=
  ∀ (s : State) (g : GbBlock), GbReady s g →
    (∃ g', GbCompletes s (exec .gbLdABc s) g' ∧ GbFrame [.a] g g' ∧ g'.a = g.mem.read g.bc.toNat) ∧
    (∃ g', GbCompletes s (exec .gbLdADe s) g' ∧ GbFrame [.a] g g' ∧ g'.a = g.mem.read g.de.toNat) ∧
    (∃ g', GbCompletes s (exec .gbLdiAHl s) g' ∧ GbFrame [.a, .h, .l] g g' ∧
      g'.a = g.mem.read g.hl.toNat ∧ g'.hl = g.hl + 1) ∧
    ∃ g', GbCompletes s (exec .gbLddAHl s) g' ∧ GbFrame [.a, .h, .l] g g' ∧
      g'.a = g.mem.read g.hl.toNat ∧ g'.hl = g.hl - 1

/-- `PUSH rr` and `POP rr` (44_gb_load R212, R213; 20_memory R58), `AF` with its low nibble 0. -/
def Obligations.GbPushAndPop : Prop :=
  ∀ (s : State) (g : GbBlock) (p : StackPair), GbReady s g →
    (∃ g', GbCompletes s (exec (.gbPush p) s) g' ∧ GbFrame [.mem, .sp] g g' ∧ g'.sp = g.sp - 2 ∧
      (g'.mem.read (g.sp - 1).toNat).toNat = (g.getStackPair p).toNat / 256 ∧
      (g'.mem.read (g.sp - 2).toNat).toNat = (g.getStackPair p).toNat % 256 ∧
      SameOutside [(g.sp - 1).toNat, (g.sp - 2).toNat] g.mem g'.mem) ∧
    ∃ g', GbCompletes s (exec (.gbPop p) s) g' ∧ GbFrame (.sp :: fieldsOfStackPair p) g g' ∧
      g'.sp = g.sp + 2 ∧
      (p ≠ .af → (g'.getStackPair p).toNat =
        256 * (g.mem.read (g.sp + 1).toNat).toNat + (g.mem.read g.sp.toNat).toNat) ∧
      (p = .af → g'.a = g.mem.read (g.sp + 1).toNat ∧ g'.f = g.mem.read g.sp.toNat &&& 0xF0)

/-- `PUSH rr; POP rr'` restores the 16-bit value and `SP`; a value popped into `AF` loses its low nibble
(44_gb_load R213, 20_memory R58). -/
def Obligations.GbPopAfterPush : Prop :=
  ∀ (s : State) (g : GbBlock) (p q : StackPair), GbReady s g →
    ∃ t u g', exec (.gbPush p) s = .next t ∧ exec (.gbPop q) t = .next u ∧ GbReady u g' ∧
      g'.sp = g.sp ∧ GbFrame (.mem :: fieldsOfStackPair q) g g' ∧
      (q ≠ .af → g'.getStackPair q = g.getStackPair p) ∧
      (q = .af → g'.getStackPair q = g.getStackPair p &&& 0xFFF0)

/-- `ADD A` and `ADC A`, register and immediate forms (45_gb_alu R220 to R223). -/
def Obligations.GbAdds : Prop :=
  ∀ (s : State) (g : GbBlock) (i : Instr) (v : Byte) (len : Word) (cin : Nat), GbReady s g →
    (OperandForm .gbAddR .gbAddN g i v len ∧ cin = 0 ∨
      OperandForm .gbAdcR .gbAdcN g i v len ∧ cin = (g.f.getLsbD 4).toNat) →
    ∃ g', GbCompletes s (exec i s) g' ∧ GbFrame [.a, .f, .pc] g g' ∧ g'.pc = g.pc + len ∧
      g'.a.toNat = (g.a.toNat + v.toNat + cin) % 256 ∧
      FlagsAre g'.f (decide (g'.a = 0)) false
        (decide (g.a.toNat % 16 + v.toNat % 16 + cin > 15)) (decide (g.a.toNat + v.toNat + cin > 255))

/-- `SUB`, `SBC A` and `CP`, register and immediate forms (45_gb_alu R220, R221, R224, R225, R229). -/
def Obligations.GbSubtractsAndCompare : Prop :=
  ∀ (s : State) (g : GbBlock) (i : Instr) (v : Byte) (len : Word) (cin : Nat) (result : Byte),
    GbReady s g → (result.toNat : Int) = ((g.a.toNat : Int) - v.toNat - cin) % 256 →
    ((OperandForm .gbSubR .gbSubN g i v len ∧ cin = 0) ∨
      (OperandForm .gbSbcR .gbSbcN g i v len ∧ cin = (g.f.getLsbD 4).toNat) ∨
      (OperandForm .gbCpR .gbCpN g i v len ∧ cin = 0)) →
    ∃ g', GbCompletes s (exec i s) g' ∧ GbFrame [.a, .f, .pc] g g' ∧ g'.pc = g.pc + len ∧
      (¬ OperandForm .gbCpR .gbCpN g i v len → g'.a = result) ∧
      (OperandForm .gbCpR .gbCpN g i v len → g'.a = g.a) ∧
      FlagsAre g'.f (decide (result = 0)) true
        (decide (g.a.toNat % 16 < v.toNat % 16 + cin)) (decide (g.a.toNat < v.toNat + cin))

/-- `AND`, `XOR`, `OR`, register and immediate forms (45_gb_alu R220, R221, R226 to R228). -/
def Obligations.GbLogic : Prop :=
  ∀ (s : State) (g : GbBlock) (i : Instr) (v : Byte) (len : Word) (result : Byte) (half : Bool),
    GbReady s g →
    ((OperandForm .gbAndR .gbAndN g i v len ∧ result = g.a &&& v ∧ half = true) ∨
      (OperandForm .gbXorR .gbXorN g i v len ∧ result = g.a ^^^ v ∧ half = false) ∨
      (OperandForm .gbOrR .gbOrN g i v len ∧ result = g.a ||| v ∧ half = false)) →
    ∃ g', GbCompletes s (exec i s) g' ∧ GbFrame [.a, .f, .pc] g g' ∧ g'.pc = g.pc + len ∧
      g'.a = result ∧ FlagsAre g'.f (decide (result = 0)) false half false

/-- `ADD HL,rr` (45_gb_alu R230). -/
def Obligations.GbAddToHl : Prop :=
  ∀ (s : State) (g : GbBlock) (p : Pair), GbReady s g →
    ∃ g', GbCompletes s (exec (.gbAddHl p) s) g' ∧ GbFrame [.h, .l, .f] g g' ∧
      g'.hl.toNat = (g.hl.toNat + (g.getPair p).toNat) % 65536 ∧
      FlagsAre g'.f (g.f.getLsbD 7) false
        (decide (g.hl.toNat % 4096 + (g.getPair p).toNat % 4096 > 4095))
        (decide (g.hl.toNat + (g.getPair p).toNat > 65535))

/-- `JP nn`, `JP cc,nn`, `JR e`, `JR cc,e` and the four conditions (46_gb_control R250 to R253, 30_encoding
R88): the operand bytes are passed whether or not the jump is taken. -/
def Obligations.GbJumps : Prop :=
  ∀ (s : State) (g : GbBlock) (cc : Cond) (holds : Prop) (nn : Word) (e : Byte), GbReady s g →
    ((cc = .nz ∧ (holds ↔ g.f.getLsbD 7 = false)) ∨ (cc = .z ∧ (holds ↔ g.f.getLsbD 7 = true)) ∨
      (cc = .nc ∧ (holds ↔ g.f.getLsbD 4 = false)) ∨ (cc = .c ∧ (holds ↔ g.f.getLsbD 4 = true))) →
    (∃ g', GbCompletes s (exec (.gbJp nn) s) g' ∧ GbFrame [.pc] g g' ∧ g'.pc = nn) ∧
    (∃ g', GbCompletes s (exec (.gbJpCc cc nn) s) g' ∧ GbFrame [.pc] g g' ∧
      (holds → g'.pc = nn) ∧ (¬ holds → g'.pc = g.pc + 2)) ∧
    (∃ g', GbCompletes s (exec (.gbJr e) s) g' ∧ GbFrame [.pc] g g' ∧
      (g'.pc.toNat : Int) = ((g.pc.toNat : Int) + 1 + e.toInt) % 65536) ∧
    ∃ g', GbCompletes s (exec (.gbJrCc cc e) s) g' ∧ GbFrame [.pc] g g' ∧
      (holds → (g'.pc.toNat : Int) = ((g.pc.toNat : Int) + 1 + e.toInt) % 65536) ∧
      (¬ holds → g'.pc = g.pc + 1)

/-- `CALL nn` and `RET` (46_gb_control R254, R255). -/
def Obligations.GbCallAndReturn : Prop :=
  ∀ (s : State) (g : GbBlock) (nn : Word), GbReady s g →
    (∃ g', GbCompletes s (exec (.gbCall nn) s) g' ∧ GbFrame [.mem, .sp, .pc] g g' ∧ g'.pc = nn ∧
      g'.sp = g.sp - 2 ∧ (g'.mem.read (g.sp - 1).toNat).toNat = (g.pc + 2).toNat / 256 ∧
      (g'.mem.read (g.sp - 2).toNat).toNat = (g.pc + 2).toNat % 256 ∧
      SameOutside [(g.sp - 1).toNat, (g.sp - 2).toNat] g.mem g'.mem) ∧
    ∃ g', GbCompletes s (exec .gbRet s) g' ∧ GbFrame [.sp, .pc] g g' ∧ g'.sp = g.sp + 2 ∧
      g'.pc.toNat = 256 * (g.mem.read (g.sp + 1).toNat).toNat + (g.mem.read g.sp.toNat).toNat

/-- A `RET` after a `CALL` gives back `SP` and the `PC` of the instruction after the `CALL` (46_gb_control
R255). -/
def Obligations.GbReturnAfterCall : Prop :=
  ∀ (s : State) (g : GbBlock) (nn : Word), GbReady s g →
    ∃ t u g', exec (.gbCall nn) s = .next t ∧ exec .gbRet t = .next u ∧ GbReady u g' ∧
      g'.pc = g.pc + 2 ∧ GbFrame [.mem, .pc] g g'

/-- `HALT`, `STOP`, `DI`, `EI` (46_gb_control R260 to R263). -/
def Obligations.GbHaltsAndInterruptEnable : Prop :=
  ∀ (s : State) (g : GbBlock), GbReady s g →
    GbHalts s (exec .gbHalt s) g .haltInstruction 0x0076 ∧
    GbHalts s (exec .gbStop s) g .haltInstruction 0x0010 ∧
    GbCompletes s (exec .gbDi s) { g with ime := false } ∧
    GbCompletes s (exec .gbEi s) { g with ime := true }

/-- `BIT b,r`, `RES b,r`, `SET b,r` (47_gb_cb R271 to R273), with `PC` past the sub-opcode (R270). That these have
constructors of their own, so that the move of `PC` is theirs and not the prefix's, is the model's (log 9). -/
def Obligations.GbBitInstructions : Prop :=
  ∀ (s : State) (g : GbBlock) (k : BitVec 3) (r : Reg8), GbReady s g →
    (∃ g', GbCompletes s (exec (.gbBit k r) s) g' ∧ GbFrame [.f, .pc] g g' ∧ g'.pc = g.pc + 1 ∧
      FlagsAre g'.f (!(g.getR r).getLsbD k.toNat) false true (g.f.getLsbD 4)) ∧
    (∃ g' v, GbCompletes s (exec (.gbRes k r) s) g' ∧ GbFrame [fieldOfReg r, .pc] g g' ∧
      g'.pc = g.pc + 1 ∧
      (∀ j, j < 8 → v.getLsbD j = if j = k.toNat then false else (g.getR r).getLsbD j) ∧
      (r ≠ .hlMem → g'.getR r = v) ∧
      (r = .hlMem → g'.mem.read g.hl.toNat = v ∧ SameOutside [g.hl.toNat] g.mem g'.mem)) ∧
    ∃ (g' : GbBlock) (v : Byte), GbCompletes s (exec (.gbSet k r) s) g' ∧
      GbFrame [fieldOfReg r, .pc] g g' ∧ g'.pc = g.pc + 1 ∧
      (∀ j, j < 8 → v.getLsbD j = if j = k.toNat then true else (g.getR r).getLsbD j) ∧
      (r ≠ .hlMem → g'.getR r = v) ∧
      (r = .hlMem → g'.mem.read g.hl.toNat = v ∧ SameOutside [g.hl.toNat] g.mem g'.mem)

/-- `PREFIX CB` (47_gb_cb R270): the second lookup, its halt, and the handler it selects. That the matched
sub-opcodes have constructors of their own is the model's (log 9); the second clause covers the terms that are
not well-formed. -/
def Obligations.GbPrefixedLookup : Prop :=
  ∀ (s : State) (g : GbBlock) (sub : Byte), GbReady s g →
    (sub.toNat < 0x40 → ∃ t, exec (.gbPrefixCb sub) s = .next t ∧ GbDone s t
      { g with
        pc := g.pc + 1,
        status := haltedStatus 0xFFFF .invalidOpcode (BitVec.ofNat 16 (0xCB00 + sub.toNat)) }
      (.cycles 0)) ∧
    (0x40 ≤ sub.toNat → ∃ g', GbCompletes s (exec (.gbPrefixCb sub) s) g' ∧ g'.pc = g.pc + 1 ∧
      exec (.gbPrefixCb sub) s =
        exec ((if sub.toNat < 0x80 then Instr.gbBit else if sub.toNat < 0xC0 then .gbRes else .gbSet)
          (BitVec.ofNat 3 (sub.toNat / 8)) (reg8Of (BitVec.ofNat 3 sub.toNat))) s)

/-- Every GB handler reports its entry of the table `GB_CYCLES`, whatever the table, and the halts report 0; the
table that reset carries has the figures of 40_dispatch_tick R125. That R125's table is carried in the state and
has these values at reset is the model's (log 15). -/
def Obligations.GbCycleCounts : Prop :=
  (∀ (i : Instr) (s t : State) (g : GbBlock) (c : GbCycles) (n : Nat), GbReady s g → exec i s = .next t →
    c = s.gbParams.cycles →
    ((∃ dst r, i = .gbLdRR dst r ∧ n = if dst = .hlMem ∨ r = .hlMem then c.ldRRMem.val else c.ldRR.val) ∨
      (∃ dst v, i = .gbLdRN dst v ∧ n = if dst = .hlMem then c.ldMemN.val else c.ldRN.val) ∨
      (∃ p nn, i = .gbLdPairNn p nn ∧ n = c.ldPairNn) ∨
      (i ∈ [.gbLdBcA, .gbLdDeA, .gbLdABc, .gbLdADe] ∧ n = c.ldIndirect) ∨
      (i ∈ [.gbLdiHlA, .gbLddHlA, .gbLdiAHl, .gbLddAHl] ∧ n = c.ldiLdd) ∨
      (∃ p, i = .gbPush p ∧ n = c.push) ∨ (∃ p, i = .gbPop p ∧ n = c.pop) ∨
      (∃ r, i ∈ [.gbAddR r, .gbAdcR r, .gbSubR r, .gbSbcR r, .gbAndR r, .gbXorR r, .gbOrR r, .gbCpR r] ∧
        n = if r = .hlMem then c.aluMem.val else c.aluR.val) ∨
      (∃ v, i ∈ [.gbAddN v, .gbAdcN v, .gbSubN v, .gbSbcN v, .gbAndN v, .gbXorN v, .gbOrN v, .gbCpN v] ∧
        n = c.aluN) ∨
      (i ∈ [.gbHalt, .gbStop] ∧ n = 0) ∨ (∃ p, i = .gbAddHl p ∧ n = c.addHl) ∨
      (∃ nn, i = .gbJp nn ∧ n = c.jp) ∨
      (∃ cc nn, i = .gbJpCc cc nn ∧ n = if g.cond cc then c.jpTaken.val else c.jpNotTaken.val) ∨
      (∃ e, i = .gbJr e ∧ n = c.jr) ∨
      (∃ cc e, i = .gbJrCc cc e ∧ n = if g.cond cc then c.jrTaken.val else c.jrNotTaken.val) ∨
      (∃ nn, i = .gbCall nn ∧ n = c.call) ∨ (i = .gbRet ∧ n = c.ret) ∨ (i ∈ [.gbDi, .gbEi] ∧ n = c.diEi) ∨
      (∃ k r, i = .gbBit k r ∧ n = if r = .hlMem then c.bitMem.val else c.bit.val) ∨
      ∃ k r, i ∈ [.gbRes k r, .gbSet k r] ∧ n = if r = .hlMem then c.resSetMem.val else c.resSet.val) →
    t.reply = .cycles n) ∧
  ∀ c : GbCycles, c = State.reset.gbParams.cycles →
    c.ldRR.val = 4 ∧ c.ldRRMem.val = 8 ∧ c.ldRN.val = 8 ∧ c.ldMemN.val = 12 ∧ c.ldPairNn.val = 12 ∧
    c.ldIndirect.val = 8 ∧ c.ldiLdd.val = 8 ∧ c.push.val = 16 ∧ c.pop.val = 12 ∧ c.aluR.val = 4 ∧
    c.aluMem.val = 8 ∧ c.aluN.val = 8 ∧ c.addHl.val = 8 ∧ c.jp.val = 16 ∧ c.jpTaken.val = 16 ∧
    c.jpNotTaken.val = 12 ∧ c.jr.val = 12 ∧ c.jrTaken.val = 12 ∧ c.jrNotTaken.val = 8 ∧ c.call.val = 24 ∧
    c.ret.val = 16 ∧ c.diEi.val = 4 ∧ c.bit.val = 8 ∧ c.bitMem.val = 12 ∧ c.resSet.val = 8 ∧
    c.resSetMem.val = 16

/-! ## Host operations -/

/-- `TimerTick` (60_exceptions R292) and `SetKeyboardValue` (70_reset_and_hazards R315), also on a halted
block. -/
def Obligations.TimersAndKeyLatch : Prop :=
  (∀ (s : State) (b : C8Block), (nextOp s.inbox).1 = .timerTick → C8Ready s b →
    ∃ t b', step s = .next t ∧ C8Done s.taken t b' .unit ∧ C8Frame [.dt, .st] b b' ∧
      b'.dt.toNat = b.dt.toNat - 1 ∧ b'.st.toNat = b.st.toNat - 1) ∧
  (∀ (s : State) (b : C8Block) (code : Nat), (nextOp s.inbox).1 = .setKeyboardValue code → C8Ready s b →
    ∃ t b', step s = .next t ∧ C8Done s.taken t b' .unit ∧ C8Frame [.key] b b' ∧
      b'.key.toNat = code % 256) ∧
  ∀ (s : State) (g : GbBlock) (code : Nat), (nextOp s.inbox).1 = .setKeyboardValue code → GbReady s g →
    ∃ t g', step s = .next t ∧ GbDone s.taken t g' .unit ∧ GbFrame [.key] g g' ∧
      g'.key.toNat = code % 256

/-- `LoadProgram` (70_reset_and_hazards R316): it builds the table, and copies the font and an image that fits;
the font is the 16 glyphs of 20_memory R68. -/
def Obligations.ProgramLoad : Prop :=
  c8Font = [
    0xF0, 0x90, 0x90, 0x90, 0xF0, 0x20, 0x60, 0x20, 0x20, 0x70, 0xF0, 0x10, 0xF0, 0x80, 0xF0,
    0xF0, 0x10, 0xF0, 0x10, 0xF0, 0x90, 0x90, 0xF0, 0x10, 0x10, 0xF0, 0x80, 0xF0, 0x10, 0xF0,
    0xF0, 0x80, 0xF0, 0x90, 0xF0, 0xF0, 0x10, 0x20, 0x40, 0x40, 0xF0, 0x90, 0xF0, 0x90, 0xF0,
    0xF0, 0x90, 0xF0, 0x10, 0xF0, 0xF0, 0x90, 0xF0, 0x90, 0x90, 0xE0, 0x90, 0xE0, 0x90, 0xE0,
    0xF0, 0x80, 0x80, 0x80, 0xF0, 0xE0, 0x90, 0x90, 0x90, 0xE0, 0xF0, 0x80, 0xF0, 0x80, 0xF0,
    0xF0, 0x80, 0xF0, 0x80, 0x80] ∧
  (∀ (s : State) (b : C8Block) (image : Option (List Byte)),
    (nextOp s.inbox).1 = .loadProgram image → C8Ready s b →
    ∃ t b' n, step s = .next t ∧
      C8Done { s.taken with chip8 := { s.chip8 with tableBuilt := true } } t b' (.bytesLoaded n) ∧
      C8Frame [.mem] b b' ∧
      (image = none → n = 0 ∧ b' = b) ∧
      ∀ bytes, image = some bytes →
        (0x200 + bytes.length > 4096 → n = 0 ∧ b' = b) ∧
        (0x200 + bytes.length ≤ 4096 → n = bytes.length ∧
          ∀ a, b'.mem.read a =
            if h : 0x200 ≤ a ∧ a < 0x200 + bytes.length then bytes[a - 0x200]'(by omega)
            else if h : a < 80 then c8Font[a]'h else b.mem.read a)) ∧
  ∀ (s : State) (g : GbBlock) (image : Option (List Byte)),
    (nextOp s.inbox).1 = .loadProgram image → GbReady s g →
    ∃ t g' n, step s = .next t ∧
      GbDone { s.taken with gb := { s.gb with tableBuilt := true } } t g' (.bytesLoaded n) ∧
      GbFrame [.mem] g g' ∧
      (image = none → n = 0 ∧ g' = g) ∧
      ∀ bytes, image = some bytes →
        (bytes.length > 65536 → n = 0 ∧ g' = g) ∧
        (bytes.length ≤ 65536 → n = bytes.length ∧
          ∀ a, g'.mem.read a = if h : a < bytes.length then bytes[a]'h else g.mem.read a)

/-- `Initialize` (70_reset_and_hazards R310): a new block with the reset values under an identity no live block
has, or nothing at all. Which of the two is a free value (log 5); the identities are the model's (log 7), and so
is that the state carries the argument `GB_RESET` that a GB block is made from (log 24). -/
def Obligations.NewBlock : Prop :=
  ∀ s : State, s.Good → (nextOp s.inbox).1 = .initializeBlock →
    ∃ t, step s = .next t ∧
      t = { s.taken with chip8 := t.chip8, gb := t.gb, allocs := s.allocs + 1, reply := t.reply } ∧
      ((t.reply = .allocationFailed ∧ t.chip8 = s.chip8 ∧ t.gb = s.gb) ∨
        ∃ id, t.reply = .initialized id ∧
          (s.arch = .chip8 → t.gb = s.gb ∧ s.chip8.blocks.lookup id = none ∧
            t.chip8.blocks.lookup id = some C8Block.reset ∧ t.chip8.ctx = s.chip8.ctx ∧
            t.chip8.tableBuilt = s.chip8.tableBuilt ∧
            ∀ k, k ≠ id → t.chip8.blocks.lookup k = s.chip8.blocks.lookup k) ∧
          (s.arch = .gb → t.chip8 = s.chip8 ∧ s.gb.blocks.lookup id = none ∧
            t.gb.blocks.lookup id = some (GbBlock.resetWith s.gbParams.reset) ∧ t.gb.ctx = s.gb.ctx ∧
            t.gb.tableBuilt = s.gb.tableBuilt ∧
            ∀ k, k ≠ id → t.gb.blocks.lookup k = s.gb.blocks.lookup k))

/-- `SetEmulationContext` and `QuitProgram` (70_reset_and_hazards R313, R314) of a CHIP-8 and of a GB instance:
what each changes, and that it changes nothing else. -/
def Obligations.ContextOperations : Prop :=
  (∀ (s : State) (id : Option Nat), (nextOp s.inbox).1 = .setEmulationContext id → s.arch = .chip8 →
    ((∀ k, id = some k → s.chip8.blocks.lookup k ≠ none) →
      step s = .next { s.taken with chip8 := { s.chip8 with ctx := id }, reply := .unit }) ∧
    (∀ k, id = some k → s.chip8.blocks.lookup k = none → step s = .refused .badContext)) ∧
  (∀ (s : State) (id : Option Nat), (nextOp s.inbox).1 = .setEmulationContext id → s.arch = .gb →
    ((∀ k, id = some k → s.gb.blocks.lookup k ≠ none) →
      step s = .next { s.taken with gb := { s.gb with ctx := id }, reply := .unit }) ∧
    (∀ k, id = some k → s.gb.blocks.lookup k = none → step s = .refused .badContext)) ∧
  (∀ s : State, (nextOp s.inbox).1 = .quitProgram → s.arch = .chip8 →
    ∃ t, step s = .next t ∧ t = { s.taken with chip8 := t.chip8, reply := .unit } ∧
      t.chip8.ctx = none ∧ t.chip8.tableBuilt = s.chip8.tableBuilt ∧ t.chip8.nextId = s.chip8.nextId ∧
      ∀ k, t.chip8.blocks.lookup k = if s.chip8.ctx = some k then none else s.chip8.blocks.lookup k) ∧
  ∀ s : State, (nextOp s.inbox).1 = .quitProgram → s.arch = .gb →
    ∃ t, step s = .next t ∧ t = { s.taken with gb := t.gb, reply := .unit } ∧
      t.gb.ctx = none ∧ t.gb.tableBuilt = s.gb.tableBuilt ∧ t.gb.nextId = s.gb.nextId ∧
      ∀ k, t.gb.blocks.lookup k = if s.gb.ctx = some k then none else s.gb.blocks.lookup k

/-- Without an active block a Tick, a load, a key and a timer event are refused (40_dispatch_tick R124,
70_reset_and_hazards R315, R316, 60_exceptions R292). -/
def Obligations.RefusedWithoutContext : Prop :=
  ∀ (s : State), (s.arch = .chip8 ∧ s.chip8.active = none ∨ s.arch = .gb ∧ s.gb.active = none) →
    (AboutToTick s ∨ (∃ image, (nextOp s.inbox).1 = .loadProgram image) ∨
      (∃ code, (nextOp s.inbox).1 = .setKeyboardValue code) ∨
      ((nextOp s.inbox).1 = .timerTick ∧ s.arch = .chip8)) →
    step s = .refused .noContext

end Statements
end

