-- ==== Sys2Proof/Laws/Cycles.lean ====
section
/-! SUPPORT. Every figure that a handler takes from a table `GB_CYCLES` is above 0 (40_dispatch_tick R122,
R125). -/

namespace Sys2Proof

@[simp] theorem Figure.pos (n : Figure) : 0 < n.val := n.property

@[simp] theorem GbCycles.ofLdRR_pos (t : GbCycles) (dst src : Reg8) : 0 < t.ofLdRR dst src := by
  unfold GbCycles.ofLdRR
  split <;> exact Figure.pos _

@[simp] theorem GbCycles.ofLdRN_pos (t : GbCycles) (dst : Reg8) : 0 < t.ofLdRN dst := by
  unfold GbCycles.ofLdRN
  split <;> exact Figure.pos _

@[simp] theorem GbCycles.ofAluR_pos (t : GbCycles) (src : Reg8) : 0 < t.ofAluR src := by
  unfold GbCycles.ofAluR
  split <;> exact Figure.pos _

@[simp] theorem GbCycles.ofJpCc_pos (t : GbCycles) (taken : Bool) : 0 < t.ofJpCc taken := by
  cases taken <;> exact Figure.pos _

@[simp] theorem GbCycles.ofJrCc_pos (t : GbCycles) (taken : Bool) : 0 < t.ofJrCc taken := by
  cases taken <;> exact Figure.pos _

@[simp] theorem GbCycles.ofBit_pos (t : GbCycles) (src : Reg8) : 0 < t.ofBit src := by
  unfold GbCycles.ofBit
  split <;> exact Figure.pos _

@[simp] theorem GbCycles.ofResSet_pos (t : GbCycles) (src : Reg8) : 0 < t.ofResSet src := by
  unfold GbCycles.ofResSet
  split <;> exact Figure.pos _

end Sys2Proof
end

