-- ==== Sys2Proof/Laws/Engine.lean ====
section
/-! SUPPORT. The active block of an instance: replacing it, and the good instances. -/

namespace Sys2Proof.Machine

theorem Engine.lookup_replace {β : Type} (blocks : List (Nat × β)) (ctx : Option Nat) (b : β) (id : Nat) :
    List.lookup id (blocks.map fun c => if ctx = some c.1 then (c.1, b) else c) =
      if ctx = some id then (List.lookup id blocks).map fun _ => b else List.lookup id blocks := by
  induction blocks with
  | nil => simp
  | cons c rest ih =>
    obtain ⟨k, v⟩ := c
    by_cases hk : id = k
    · subst hk
      by_cases hc : ctx = some id <;> simp [hc]
    · have hb : (id == k) = false := by simpa using hk
      by_cases hc : ctx = some k <;> simpa [List.lookup_cons, hb, hc] using ih

theorem Engine.active_eq_some {β : Type} {e : Engine β} {b : β} (h : e.active = some b) :
    ∃ id, e.ctx = some id ∧ e.blocks.lookup id = some b := by
  simpa [Engine.active, Option.bind_eq_some_iff] using h

/-- The block put is the active one. -/
theorem Engine.active_putActive {β : Type} {e : Engine β} {b : β} (b' : β) (h : e.active = some b) :
    (e.putActive b').active = some b' := by
  obtain ⟨id, hid, hb⟩ := Engine.active_eq_some h
  simp only [Engine.active, Engine.putActive, hid, Option.bind_some]
  rw [Engine.lookup_replace]
  simp [hb]

theorem Engine.lookup_putActive {β : Type} (e : Engine β) (b : β) (id : Nat) :
    (e.putActive b).blocks.lookup id =
      if e.ctx = some id then (e.blocks.lookup id).map fun _ => b else e.blocks.lookup id :=
  Engine.lookup_replace ..

theorem Engine.sameButActive_putActive {β : Type} (e : Engine β) (b : β) :
    e.SameButActive (e.putActive b) := by
  refine ⟨rfl, rfl, rfl, fun id h => ?_⟩
  rw [Engine.lookup_putActive, if_neg h]

theorem Engine.sameButActive_refl {β : Type} (e : Engine β) : e.SameButActive e :=
  ⟨rfl, rfl, rfl, fun _ _ => rfl⟩

/-- The second of two puts is the one that counts. -/
theorem Engine.putActive_putActive {β : Type} (e : Engine β) (b b' : β) :
    (e.putActive b).putActive b' = e.putActive b' := by
  simp only [Engine.putActive, List.map_map]
  congr 1
  refine List.map_congr_left fun c _ => ?_
  by_cases h : e.ctx = some c.1 <;> simp [h]

theorem Engine.keys_putActive {β : Type} (e : Engine β) (b : β) :
    (e.putActive b).blocks.map Prod.fst = e.blocks.map Prod.fst := by
  simp only [Engine.putActive, List.map_map]
  refine List.map_congr_left fun c _ => ?_
  by_cases h : e.ctx = some c.1 <;> simp [h]

/-! ## Good instances -/

theorem Engine.mem_of_active {β : Type} {e : Engine β} {b : β} (h : e.active = some b) :
    ∃ id, (id, b) ∈ e.blocks := by
  obtain ⟨id, -, hb⟩ := Engine.active_eq_some h
  obtain ⟨l₁, l₂, hl, -⟩ := List.lookup_eq_some_iff.1 hb
  exact ⟨id, by simp [hl]⟩

theorem Engine.Good.active {β : Type} {good : β → Prop} {e : Engine β} (h : e.Good good) {b : β}
    (hb : e.active = some b) : good b := by
  obtain ⟨id, hm⟩ := Engine.mem_of_active hb
  exact (h.1 _ hm).1

/-- Putting a good block keeps an instance good. -/
theorem Engine.Good.putActive {β : Type} {good : β → Prop} {e : Engine β} (h : e.Good good) {b : β}
    (hb : good b) : (e.putActive b).Good good := by
  refine ⟨fun c hc => ?_, ?_, fun id hid => ?_⟩
  · obtain ⟨d, hd, rfl⟩ := List.mem_map.1 hc
    by_cases hk : e.ctx = some d.1
    · rw [if_pos hk]
      exact ⟨hb, (h.1 d hd).2⟩
    · rw [if_neg hk]
      exact h.1 d hd
  · rw [Engine.keys_putActive]
    exact h.2.1
  · have hid : e.ctx = some id := hid
    have := h.2.2 id hid
    rw [Engine.live, Engine.lookup_putActive, if_pos hid]
    simpa [Engine.live] using this

theorem Engine.live_iff {β : Type} (e : Engine β) (id : Nat) :
    e.live id = true ↔ id ∈ e.blocks.map Prod.fst := by
  rw [Engine.live, Option.isSome_iff_exists]
  constructor
  · rintro ⟨b, hb⟩
    obtain ⟨l₁, l₂, hl, -⟩ := List.lookup_eq_some_iff.1 hb
    simp [hl]
  · intro hm
    by_contra hn
    obtain ⟨c, hc, rfl⟩ := List.mem_map.1 hm
    have : e.blocks.lookup c.1 = none := by
      rw [Option.eq_none_iff_forall_ne_some]
      exact fun b hb => hn ⟨b, hb⟩
    have := List.lookup_eq_none_iff.1 this c hc
    simp at this

/-- A fresh block keeps an instance good. -/
theorem Engine.Good.addBlock {β : Type} {good : β → Prop} {e : Engine β} (h : e.Good good) {b : β}
    (hb : good b) : (e.addBlock b).Good good := by
  have hlt : ∀ id ∈ e.blocks.map Prod.fst, id < e.nextId := by
    intro id hid
    obtain ⟨c, hc, rfl⟩ := List.mem_map.1 hid
    exact (h.1 c hc).2
  refine ⟨fun c hc => ?_, ?_, fun id hid => ?_⟩
  · rcases List.mem_append.1 hc with hc | hc
    · exact ⟨(h.1 c hc).1, Nat.lt_succ_of_lt (h.1 c hc).2⟩
    · obtain rfl := List.mem_singleton.1 hc
      exact ⟨hb, Nat.lt_succ_self _⟩
  · simp only [Engine.addBlock, List.map_append, List.map_cons, List.map_nil]
    refine List.nodup_append.2 ⟨h.2.1, by simp, ?_⟩
    intro a ha b hb
    obtain rfl := List.mem_singleton.1 hb
    exact Nat.ne_of_lt (hlt a ha)
  · have := (Engine.live_iff e id).1 (h.2.2 id hid)
    rw [Engine.live_iff]
    simp only [Engine.addBlock, List.map_append, List.mem_append]
    exact .inl this

/-- Releasing the active block keeps an instance good. -/
theorem Engine.Good.quit {β : Type} {good : β → Prop} {e : Engine β} (h : e.Good good) :
    e.quit.Good good := by
  unfold Engine.quit
  split
  · exact h
  · refine ⟨fun c hc => h.1 c (List.mem_of_mem_filter hc), ?_, fun _ h => by cases h⟩
    exact h.2.1.sublist (List.filter_sublist.map _)

theorem Engine.Good.setCtx {β : Type} {good : β → Prop} {e : Engine β} (h : e.Good good) {id : Option Nat}
    (ha : e.accepts id = true) : Engine.Good good { e with ctx := id } := by
  refine ⟨h.1, h.2.1, fun k hk => ?_⟩
  obtain rfl : id = some k := hk
  exact ha

theorem Engine.Good.build {β : Type} {good : β → Prop} {e : Engine β} (h : e.Good good) :
    e.build.Good good := h

end Sys2Proof.Machine
end

