-- ==== Sys2Proof/Laws/Memory.lean ====
section
/-! SUPPORT. What the memory operations do: read after write, and that every operation keeps the canonical
form. -/

namespace Sys2Proof.Machine

theorem Memory.read_nil (a : Nat) : Memory.read [] a = unlisted := rfl

theorem Memory.read_cons (c : Host.Cell) (m : Memory) (a : Nat) :
    Memory.read (c :: m) a = if a = c.1 then c.2 else Memory.read m a := by
  obtain ⟨k, v⟩ := c
  by_cases h : a = k
  · simp [Memory.read, h]
  · have : (a == k) = false := by simpa using h
    simp [Memory.read, List.lookup_cons, h, this]

theorem Memory.read_insert (m : Memory) (k : Nat) (v : Byte) (a : Nat) (hk : ∀ c ∈ m, c.1 ≠ k) :
    Memory.read (Memory.insert m k v) a = if a = k then v else Memory.read m a := by
  induction m with
  | nil => simp [Memory.insert, Memory.read_cons]
  | cons c m ih =>
    have hc : c.1 ≠ k := hk c (by simp)
    have ih := ih fun d hd => hk d (by simp [hd])
    unfold Memory.insert
    split
    · rw [Memory.read_cons]
    · rw [Memory.read_cons, ih, Memory.read_cons]
      split <;> split <;> simp_all

theorem Memory.read_filter (m : Memory) (k a : Nat) :
    Memory.read (m.filter fun c => c.1 != k) a = if a = k then unlisted else Memory.read m a := by
  induction m with
  | nil => simp [Memory.read_nil]
  | cons c m ih =>
    rw [List.filter_cons, Memory.read_cons]
    by_cases h : c.1 = k
    · rw [if_neg (by simp [h]), ih, h]
      by_cases ha : a = k <;> simp [ha]
    · rw [if_pos (by simpa using h), Memory.read_cons, ih]
      by_cases ha : a = k
      · simp [ha, Ne.symm h]
      · simp [ha]

/-- One byte changes and no other. -/
theorem Memory.read_write (m : Memory) (k : Nat) (v : Byte) (a : Nat) :
    (m.write k v).read a = if a = k then v else m.read a := by
  unfold Memory.write
  split
  · rename_i h
    rw [Memory.read_filter, h]
  · rw [Memory.read_insert _ _ _ _ (by simp), Memory.read_filter]
    split <;> rfl

@[simp] theorem Memory.read_write_same (m : Memory) (k : Nat) (v : Byte) :
    (m.write k v).read k = v := by simp [Memory.read_write]

theorem Memory.read_write_other (m : Memory) {k a : Nat} (v : Byte) (h : a ≠ k) :
    (m.write k v).read a = m.read a := by simp [Memory.read_write, h]

/-- Bytes stored at rising addresses. -/
theorem Memory.read_writeBytes (bytes : List Byte) (m : Memory) (base a : Nat) :
    (m.writeBytes base bytes).read a =
      if base ≤ a then (bytes[a - base]?).getD (m.read a) else m.read a := by
  induction bytes generalizing m base with
  | nil => simp [Memory.writeBytes]
  | cons v rest ih =>
    rw [Memory.writeBytes, ih, Memory.read_write]
    by_cases h1 : base + 1 ≤ a
    · have h2 : base ≤ a := by omega
      have h3 : a ≠ base := by omega
      have h4 : a - base = (a - (base + 1)) + 1 := by omega
      simp [h1, h2, h3, h4]
    · by_cases h2 : a = base
      · subst h2; simp
      · have h3 : ¬ base ≤ a := by omega
        simp [h1, h2, h3]

/-! ## The canonical form -/

theorem Memory.wf_nil (size : Nat) : Memory.wf size [] := by simp [Memory.wf]

theorem Memory.wf_filter {size : Nat} {m : Memory} (p : Host.Cell → Bool) (h : Memory.wf size m) :
    Memory.wf size (m.filter p) :=
  ⟨h.1.sublist (List.filter_sublist.map _), fun c hc => h.2 c (List.mem_of_mem_filter hc)⟩

theorem Memory.mem_insert {m : Memory} {k : Nat} {v : Byte} {c : Host.Cell}
    (h : c ∈ Memory.insert m k v) : c = (k, v) ∨ c ∈ m := by
  induction m with
  | nil => simpa [Memory.insert] using h
  | cons d m ih =>
    unfold Memory.insert at h
    split at h
    · simpa using h
    · rcases List.mem_cons.1 h with h | h
      · simp [h]
      · rcases ih h with h | h <;> simp [h]

theorem Memory.wf_insert {size : Nat} {m : Memory} {k : Nat} {v : Byte} (h : Memory.wf size m)
    (hk : k < size) (hv : v ≠ unlisted) (hn : ∀ c ∈ m, c.1 ≠ k) :
    Memory.wf size (Memory.insert m k v) := by
  refine ⟨?_, fun c hc => ?_⟩
  · induction m with
    | nil => simp [Memory.insert]
    | cons d m ih =>
      have hm : Memory.wf size m := ⟨(List.pairwise_cons.1 h.1).2, fun c hc => h.2 c (by simp [hc])⟩
      have hd := (List.pairwise_cons.1 h.1).1
      have hdk : d.1 ≠ k := hn d (by simp)
      unfold Memory.insert
      split
      · rename_i hlt
        refine List.pairwise_cons.2 ⟨fun a ha => ?_, h.1⟩
        rcases List.mem_cons.1 ha with rfl | ha
        · exact hlt
        · exact Nat.lt_trans hlt (hd a ha)
      · rename_i hge
        refine List.pairwise_cons.2 ⟨fun a ha => ?_, ih hm fun c hc => hn c (by simp [hc])⟩
        obtain ⟨c, hc, rfl⟩ := List.mem_map.1 ha
        rcases Memory.mem_insert hc with rfl | hc
        · have : ¬ k < d.1 := hge
          show d.1 < k
          omega
        · exact hd _ (List.mem_map.2 ⟨c, hc, rfl⟩)
  · rcases Memory.mem_insert hc with rfl | hc
    · exact ⟨hk, hv⟩
    · exact h.2 c hc

/-- A store inside the memory keeps the canonical form. -/
theorem Memory.wf_write {size : Nat} {m : Memory} {k : Nat} (v : Byte) (h : Memory.wf size m)
    (hk : k < size) : Memory.wf size (m.write k v) := by
  unfold Memory.write
  split
  · exact Memory.wf_filter _ h
  · exact Memory.wf_insert (Memory.wf_filter _ h) hk (by assumption) (by simp)

theorem Memory.wf_writeBytes {size : Nat} (bytes : List Byte) {m : Memory} {base : Nat}
    (h : Memory.wf size m) (hb : base + bytes.length ≤ size) :
    Memory.wf size (m.writeBytes base bytes) := by
  induction bytes generalizing m base with
  | nil => exact h
  | cons v rest ih =>
    simp only [List.length_cons] at hb
    exact ih (Memory.wf_write v h (by omega)) (by omega)

/-- Two canonical memories that read alike are the same list. -/
theorem Memory.ext_of_wf {size : Nat} {m m' : Memory} (h : Memory.wf size m) (h' : Memory.wf size m')
    (hr : ∀ a, Memory.read m a = Memory.read m' a) : m = m' := by
  induction m generalizing m' with
  | nil =>
    cases m' with
    | nil => rfl
    | cons d m' =>
      have := hr d.1
      simp [Memory.read_nil, Memory.read_cons] at this
      exact absurd this.symm (h'.2 d (by simp)).2
  | cons c m ih =>
    have hlow : ∀ {c : Host.Cell} {m : Memory}, Memory.wf size (c :: m) → ∀ a, a ≤ c.1 →
        Memory.read m a = unlisted := by
      intro c m hw a ha
      have hnone : m.lookup a = none := by
        rw [List.lookup_eq_none_iff]
        intro p hp
        have := (List.pairwise_cons.1 hw.1).1 p.1 (List.mem_map.2 ⟨p, hp, rfl⟩)
        simp
        omega
      simp [Memory.read, hnone]
    have htail : ∀ {c : Host.Cell} {m : Memory}, Memory.wf size (c :: m) → Memory.wf size m :=
      fun hw => ⟨(List.pairwise_cons.1 hw.1).2, fun c hc => hw.2 c (by simp [hc])⟩
    cases m' with
    | nil =>
      have := hr c.1
      simp [Memory.read_nil, Memory.read_cons] at this
      exact absurd this (h.2 c (by simp)).2
    | cons d m' =>
      have hcd : c.1 = d.1 := by
        rcases Nat.lt_trichotomy c.1 d.1 with hlt | heq | hgt
        · have := hr c.1
          rw [Memory.read_cons, Memory.read_cons, if_pos rfl, if_neg (by omega),
            hlow h' _ (by omega)] at this
          exact absurd this (h.2 c (by simp)).2
        · exact heq
        · have := hr d.1
          rw [Memory.read_cons, Memory.read_cons, if_pos rfl, if_neg (by omega),
            hlow h _ (by omega)] at this
          exact absurd this.symm (h'.2 d (by simp)).2
      have hv : c.2 = d.2 := by
        have := hr c.1
        rwa [Memory.read_cons, Memory.read_cons, if_pos rfl, if_pos hcd] at this
      have hmm : m = m' := by
        refine ih (htail h) (htail h') fun a => ?_
        have := hr a
        rw [Memory.read_cons, Memory.read_cons] at this
        by_cases ha : a = c.1
        · rw [hlow h a (by omega), hlow h' a (by omega)]
        · rwa [if_neg ha, if_neg (by omega)] at this
      rw [hmm, show c = d from Prod.ext hcd hv]

end Sys2Proof.Machine
end

