-- ==== Sys2Proof/Laws/State.lean ====
section
/-! SUPPORT. One lemma per field per update, each true by unfolding the update once. -/

namespace Sys2Proof.Machine

/-! ### `State.putC8` -/

@[simp] theorem State.putC8_arch (s : State) (b : C8Block) :
    (s.putC8 b).arch = s.arch := rfl
@[simp] theorem State.putC8_gbParams (s : State) (b : C8Block) :
    (s.putC8 b).gbParams = s.gbParams := rfl
@[simp] theorem State.putC8_cycles (s : State) (b : C8Block) :
    (s.putC8 b).cycles = s.cycles := rfl
@[simp] theorem State.putC8_chip8 (s : State) (b : C8Block) :
    (s.putC8 b).chip8 = s.chip8.putActive b := rfl
@[simp] theorem State.putC8_gb (s : State) (b : C8Block) :
    (s.putC8 b).gb = s.gb := rfl
@[simp] theorem State.putC8_inbox (s : State) (b : C8Block) :
    (s.putC8 b).inbox = s.inbox := rfl
@[simp] theorem State.putC8_reply (s : State) (b : C8Block) :
    (s.putC8 b).reply = s.reply := rfl
@[simp] theorem State.putC8_draws (s : State) (b : C8Block) :
    (s.putC8 b).draws = s.draws := rfl
@[simp] theorem State.putC8_allocs (s : State) (b : C8Block) :
    (s.putC8 b).allocs = s.allocs := rfl

/-! ### `State.putGb` -/

@[simp] theorem State.putGb_arch (s : State) (g : GbBlock) :
    (s.putGb g).arch = s.arch := rfl
@[simp] theorem State.putGb_gbParams (s : State) (g : GbBlock) :
    (s.putGb g).gbParams = s.gbParams := rfl
@[simp] theorem State.putGb_cycles (s : State) (g : GbBlock) :
    (s.putGb g).cycles = s.cycles := rfl
@[simp] theorem State.putGb_chip8 (s : State) (g : GbBlock) :
    (s.putGb g).chip8 = s.chip8 := rfl
@[simp] theorem State.putGb_gb (s : State) (g : GbBlock) :
    (s.putGb g).gb = s.gb.putActive g := rfl
@[simp] theorem State.putGb_inbox (s : State) (g : GbBlock) :
    (s.putGb g).inbox = s.inbox := rfl
@[simp] theorem State.putGb_reply (s : State) (g : GbBlock) :
    (s.putGb g).reply = s.reply := rfl
@[simp] theorem State.putGb_draws (s : State) (g : GbBlock) :
    (s.putGb g).draws = s.draws := rfl
@[simp] theorem State.putGb_allocs (s : State) (g : GbBlock) :
    (s.putGb g).allocs = s.allocs := rfl

/-! ### `State.answer` -/

@[simp] theorem State.answer_arch (s : State) (r : Reply) :
    (s.answer r).arch = s.arch := rfl
@[simp] theorem State.answer_gbParams (s : State) (r : Reply) :
    (s.answer r).gbParams = s.gbParams := rfl
@[simp] theorem State.answer_cycles (s : State) (r : Reply) :
    (s.answer r).cycles = s.cycles := rfl
@[simp] theorem State.answer_chip8 (s : State) (r : Reply) :
    (s.answer r).chip8 = s.chip8 := rfl
@[simp] theorem State.answer_gb (s : State) (r : Reply) :
    (s.answer r).gb = s.gb := rfl
@[simp] theorem State.answer_inbox (s : State) (r : Reply) :
    (s.answer r).inbox = s.inbox := rfl
@[simp] theorem State.answer_reply (s : State) (r : Reply) :
    (s.answer r).reply = r := rfl
@[simp] theorem State.answer_draws (s : State) (r : Reply) :
    (s.answer r).draws = s.draws := rfl
@[simp] theorem State.answer_allocs (s : State) (r : Reply) :
    (s.answer r).allocs = s.allocs := rfl

/-! ### `Status.halt` -/

@[simp] theorem Status.halt_run (st : Status) (c : HaltCause) (info : Word) :
    (st.halt c info).run = .halted := rfl
@[simp] theorem Status.halt_lastInstruction (st : Status) (c : HaltCause) (info : Word) :
    (st.halt c info).lastInstruction = st.lastInstruction := rfl
@[simp] theorem Status.halt_haltCause (st : Status) (c : HaltCause) (info : Word) :
    (st.halt c info).haltCause = c := rfl
@[simp] theorem Status.halt_haltInfo (st : Status) (c : HaltCause) (info : Word) :
    (st.halt c info).haltInfo = info := rfl

/-! ### `Status.record` -/

@[simp] theorem Status.record_run (st : Status) (op : Word) :
    (st.record op).run = st.run := rfl
@[simp] theorem Status.record_lastInstruction (st : Status) (op : Word) :
    (st.record op).lastInstruction = op := rfl
@[simp] theorem Status.record_haltCause (st : Status) (op : Word) :
    (st.record op).haltCause = st.haltCause := rfl
@[simp] theorem Status.record_haltInfo (st : Status) (op : Word) :
    (st.record op).haltInfo = st.haltInfo := rfl

/-! ### `Status.invalid` -/

@[simp] theorem Status.invalid_run (st : Status) (op : Word) :
    (st.invalid op).run = .halted := rfl
@[simp] theorem Status.invalid_lastInstruction (st : Status) (op : Word) :
    (st.invalid op).lastInstruction = Config.lastInvalid := rfl
@[simp] theorem Status.invalid_haltCause (st : Status) (op : Word) :
    (st.invalid op).haltCause = .invalidOpcode := rfl
@[simp] theorem Status.invalid_haltInfo (st : Status) (op : Word) :
    (st.invalid op).haltInfo = op := rfl

/-! ### `C8Block.setV` -/

@[simp] theorem C8Block.setV_mem (b : C8Block) (x : BitVec 4) (k : Byte) :
    (b.setV x k).mem = b.mem := rfl
@[simp] theorem C8Block.setV_v (b : C8Block) (x : BitVec 4) (k : Byte) :
    (b.setV x k).v = b.v.set x.toNat k x.isLt := rfl
@[simp] theorem C8Block.setV_i (b : C8Block) (x : BitVec 4) (k : Byte) :
    (b.setV x k).i = b.i := rfl
@[simp] theorem C8Block.setV_pc (b : C8Block) (x : BitVec 4) (k : Byte) :
    (b.setV x k).pc = b.pc := rfl
@[simp] theorem C8Block.setV_sp (b : C8Block) (x : BitVec 4) (k : Byte) :
    (b.setV x k).sp = b.sp := rfl
@[simp] theorem C8Block.setV_stack (b : C8Block) (x : BitVec 4) (k : Byte) :
    (b.setV x k).stack = b.stack := rfl
@[simp] theorem C8Block.setV_dt (b : C8Block) (x : BitVec 4) (k : Byte) :
    (b.setV x k).dt = b.dt := rfl
@[simp] theorem C8Block.setV_st (b : C8Block) (x : BitVec 4) (k : Byte) :
    (b.setV x k).st = b.st := rfl
@[simp] theorem C8Block.setV_disp (b : C8Block) (x : BitVec 4) (k : Byte) :
    (b.setV x k).disp = b.disp := rfl
@[simp] theorem C8Block.setV_key (b : C8Block) (x : BitVec 4) (k : Byte) :
    (b.setV x k).key = b.key := rfl
@[simp] theorem C8Block.setV_status (b : C8Block) (x : BitVec 4) (k : Byte) :
    (b.setV x k).status = b.status := rfl

/-! ### `C8Block.setVWithFlag` -/

@[simp] theorem C8Block.setVWithFlag_mem (b : C8Block) (x : BitVec 4) (k : Byte) (fl : Bool) :
    (b.setVWithFlag x k fl).mem = b.mem := rfl
@[simp] theorem C8Block.setVWithFlag_i (b : C8Block) (x : BitVec 4) (k : Byte) (fl : Bool) :
    (b.setVWithFlag x k fl).i = b.i := rfl
@[simp] theorem C8Block.setVWithFlag_pc (b : C8Block) (x : BitVec 4) (k : Byte) (fl : Bool) :
    (b.setVWithFlag x k fl).pc = b.pc := rfl
@[simp] theorem C8Block.setVWithFlag_sp (b : C8Block) (x : BitVec 4) (k : Byte) (fl : Bool) :
    (b.setVWithFlag x k fl).sp = b.sp := rfl
@[simp] theorem C8Block.setVWithFlag_stack (b : C8Block) (x : BitVec 4) (k : Byte) (fl : Bool) :
    (b.setVWithFlag x k fl).stack = b.stack := rfl
@[simp] theorem C8Block.setVWithFlag_dt (b : C8Block) (x : BitVec 4) (k : Byte) (fl : Bool) :
    (b.setVWithFlag x k fl).dt = b.dt := rfl
@[simp] theorem C8Block.setVWithFlag_st (b : C8Block) (x : BitVec 4) (k : Byte) (fl : Bool) :
    (b.setVWithFlag x k fl).st = b.st := rfl
@[simp] theorem C8Block.setVWithFlag_disp (b : C8Block) (x : BitVec 4) (k : Byte) (fl : Bool) :
    (b.setVWithFlag x k fl).disp = b.disp := rfl
@[simp] theorem C8Block.setVWithFlag_key (b : C8Block) (x : BitVec 4) (k : Byte) (fl : Bool) :
    (b.setVWithFlag x k fl).key = b.key := rfl
@[simp] theorem C8Block.setVWithFlag_status (b : C8Block) (x : BitVec 4) (k : Byte) (fl : Bool) :
    (b.setVWithFlag x k fl).status = b.status := rfl

/-! ### `C8Block.halt` -/

@[simp] theorem C8Block.halt_mem (b : C8Block) (c : HaltCause) (info : Word) :
    (b.halt c info).mem = b.mem := rfl
@[simp] theorem C8Block.halt_v (b : C8Block) (c : HaltCause) (info : Word) :
    (b.halt c info).v = b.v := rfl
@[simp] theorem C8Block.halt_i (b : C8Block) (c : HaltCause) (info : Word) :
    (b.halt c info).i = b.i := rfl
@[simp] theorem C8Block.halt_pc (b : C8Block) (c : HaltCause) (info : Word) :
    (b.halt c info).pc = b.pc := rfl
@[simp] theorem C8Block.halt_sp (b : C8Block) (c : HaltCause) (info : Word) :
    (b.halt c info).sp = b.sp := rfl
@[simp] theorem C8Block.halt_stack (b : C8Block) (c : HaltCause) (info : Word) :
    (b.halt c info).stack = b.stack := rfl
@[simp] theorem C8Block.halt_dt (b : C8Block) (c : HaltCause) (info : Word) :
    (b.halt c info).dt = b.dt := rfl
@[simp] theorem C8Block.halt_st (b : C8Block) (c : HaltCause) (info : Word) :
    (b.halt c info).st = b.st := rfl
@[simp] theorem C8Block.halt_disp (b : C8Block) (c : HaltCause) (info : Word) :
    (b.halt c info).disp = b.disp := rfl
@[simp] theorem C8Block.halt_key (b : C8Block) (c : HaltCause) (info : Word) :
    (b.halt c info).key = b.key := rfl
@[simp] theorem C8Block.halt_status (b : C8Block) (c : HaltCause) (info : Word) :
    (b.halt c info).status = b.status.halt c info := rfl

/-! ### `C8Block.readFault` -/

@[simp] theorem C8Block.readFault_mem (b : C8Block) :
    (b.readFault).mem = b.mem := rfl
@[simp] theorem C8Block.readFault_v (b : C8Block) :
    (b.readFault).v = b.v := rfl
@[simp] theorem C8Block.readFault_i (b : C8Block) :
    (b.readFault).i = b.i := rfl
@[simp] theorem C8Block.readFault_pc (b : C8Block) :
    (b.readFault).pc = b.pc := rfl
@[simp] theorem C8Block.readFault_sp (b : C8Block) :
    (b.readFault).sp = b.sp := rfl
@[simp] theorem C8Block.readFault_stack (b : C8Block) :
    (b.readFault).stack = b.stack := rfl
@[simp] theorem C8Block.readFault_dt (b : C8Block) :
    (b.readFault).dt = b.dt := rfl
@[simp] theorem C8Block.readFault_st (b : C8Block) :
    (b.readFault).st = b.st := rfl
@[simp] theorem C8Block.readFault_disp (b : C8Block) :
    (b.readFault).disp = b.disp := rfl
@[simp] theorem C8Block.readFault_key (b : C8Block) :
    (b.readFault).key = b.key := rfl

/-! ### `C8Block.passOpcode` -/

@[simp] theorem C8Block.passOpcode_mem (b : C8Block) :
    (b.passOpcode).mem = b.mem := rfl
@[simp] theorem C8Block.passOpcode_v (b : C8Block) :
    (b.passOpcode).v = b.v := rfl
@[simp] theorem C8Block.passOpcode_i (b : C8Block) :
    (b.passOpcode).i = b.i := rfl
@[simp] theorem C8Block.passOpcode_pc (b : C8Block) :
    (b.passOpcode).pc = b.pc + 2 := rfl
@[simp] theorem C8Block.passOpcode_sp (b : C8Block) :
    (b.passOpcode).sp = b.sp := rfl
@[simp] theorem C8Block.passOpcode_stack (b : C8Block) :
    (b.passOpcode).stack = b.stack := rfl
@[simp] theorem C8Block.passOpcode_dt (b : C8Block) :
    (b.passOpcode).dt = b.dt := rfl
@[simp] theorem C8Block.passOpcode_st (b : C8Block) :
    (b.passOpcode).st = b.st := rfl
@[simp] theorem C8Block.passOpcode_disp (b : C8Block) :
    (b.passOpcode).disp = b.disp := rfl
@[simp] theorem C8Block.passOpcode_key (b : C8Block) :
    (b.passOpcode).key = b.key := rfl
@[simp] theorem C8Block.passOpcode_status (b : C8Block) :
    (b.passOpcode).status = b.status := rfl

/-! ### `C8Block.dispatched` -/

@[simp] theorem C8Block.dispatched_mem (b : C8Block) (op : Word) :
    (b.dispatched op).mem = b.mem := rfl
@[simp] theorem C8Block.dispatched_v (b : C8Block) (op : Word) :
    (b.dispatched op).v = b.v := rfl
@[simp] theorem C8Block.dispatched_i (b : C8Block) (op : Word) :
    (b.dispatched op).i = b.i := rfl
@[simp] theorem C8Block.dispatched_pc (b : C8Block) (op : Word) :
    (b.dispatched op).pc = b.pc + 2 := rfl
@[simp] theorem C8Block.dispatched_sp (b : C8Block) (op : Word) :
    (b.dispatched op).sp = b.sp := rfl
@[simp] theorem C8Block.dispatched_stack (b : C8Block) (op : Word) :
    (b.dispatched op).stack = b.stack := rfl
@[simp] theorem C8Block.dispatched_dt (b : C8Block) (op : Word) :
    (b.dispatched op).dt = b.dt := rfl
@[simp] theorem C8Block.dispatched_st (b : C8Block) (op : Word) :
    (b.dispatched op).st = b.st := rfl
@[simp] theorem C8Block.dispatched_disp (b : C8Block) (op : Word) :
    (b.dispatched op).disp = b.disp := rfl
@[simp] theorem C8Block.dispatched_key (b : C8Block) (op : Word) :
    (b.dispatched op).key = b.key := rfl
@[simp] theorem C8Block.dispatched_status (b : C8Block) (op : Word) :
    (b.dispatched op).status = b.status.record op := rfl

/-! ### `C8Block.noEntry` -/

@[simp] theorem C8Block.noEntry_mem (b : C8Block) (op : Word) :
    (b.noEntry op).mem = b.mem := rfl
@[simp] theorem C8Block.noEntry_v (b : C8Block) (op : Word) :
    (b.noEntry op).v = b.v := rfl
@[simp] theorem C8Block.noEntry_i (b : C8Block) (op : Word) :
    (b.noEntry op).i = b.i := rfl
@[simp] theorem C8Block.noEntry_pc (b : C8Block) (op : Word) :
    (b.noEntry op).pc = b.pc + 2 := rfl
@[simp] theorem C8Block.noEntry_sp (b : C8Block) (op : Word) :
    (b.noEntry op).sp = b.sp := rfl
@[simp] theorem C8Block.noEntry_stack (b : C8Block) (op : Word) :
    (b.noEntry op).stack = b.stack := rfl
@[simp] theorem C8Block.noEntry_dt (b : C8Block) (op : Word) :
    (b.noEntry op).dt = b.dt := rfl
@[simp] theorem C8Block.noEntry_st (b : C8Block) (op : Word) :
    (b.noEntry op).st = b.st := rfl
@[simp] theorem C8Block.noEntry_disp (b : C8Block) (op : Word) :
    (b.noEntry op).disp = b.disp := rfl
@[simp] theorem C8Block.noEntry_key (b : C8Block) (op : Word) :
    (b.noEntry op).key = b.key := rfl
@[simp] theorem C8Block.noEntry_status (b : C8Block) (op : Word) :
    (b.noEntry op).status = b.status.invalid op := rfl

/-! ### `C8Block.timerTick` -/

@[simp] theorem C8Block.timerTick_mem (b : C8Block) :
    (b.timerTick).mem = b.mem := rfl
@[simp] theorem C8Block.timerTick_v (b : C8Block) :
    (b.timerTick).v = b.v := rfl
@[simp] theorem C8Block.timerTick_i (b : C8Block) :
    (b.timerTick).i = b.i := rfl
@[simp] theorem C8Block.timerTick_pc (b : C8Block) :
    (b.timerTick).pc = b.pc := rfl
@[simp] theorem C8Block.timerTick_sp (b : C8Block) :
    (b.timerTick).sp = b.sp := rfl
@[simp] theorem C8Block.timerTick_stack (b : C8Block) :
    (b.timerTick).stack = b.stack := rfl
@[simp] theorem C8Block.timerTick_dt (b : C8Block) :
    (b.timerTick).dt = countDown b.dt := rfl
@[simp] theorem C8Block.timerTick_st (b : C8Block) :
    (b.timerTick).st = countDown b.st := rfl
@[simp] theorem C8Block.timerTick_disp (b : C8Block) :
    (b.timerTick).disp = b.disp := rfl
@[simp] theorem C8Block.timerTick_key (b : C8Block) :
    (b.timerTick).key = b.key := rfl
@[simp] theorem C8Block.timerTick_status (b : C8Block) :
    (b.timerTick).status = b.status := rfl

/-! ### `storeRegs` -/

@[simp] theorem storeRegs_v (b : C8Block) (n : Nat) :
    (storeRegs b n).v = b.v := rfl
@[simp] theorem storeRegs_i (b : C8Block) (n : Nat) :
    (storeRegs b n).i = b.i := rfl
@[simp] theorem storeRegs_pc (b : C8Block) (n : Nat) :
    (storeRegs b n).pc = b.pc := rfl
@[simp] theorem storeRegs_sp (b : C8Block) (n : Nat) :
    (storeRegs b n).sp = b.sp := rfl
@[simp] theorem storeRegs_stack (b : C8Block) (n : Nat) :
    (storeRegs b n).stack = b.stack := rfl
@[simp] theorem storeRegs_dt (b : C8Block) (n : Nat) :
    (storeRegs b n).dt = b.dt := rfl
@[simp] theorem storeRegs_st (b : C8Block) (n : Nat) :
    (storeRegs b n).st = b.st := rfl
@[simp] theorem storeRegs_disp (b : C8Block) (n : Nat) :
    (storeRegs b n).disp = b.disp := rfl
@[simp] theorem storeRegs_key (b : C8Block) (n : Nat) :
    (storeRegs b n).key = b.key := rfl
@[simp] theorem storeRegs_status (b : C8Block) (n : Nat) :
    (storeRegs b n).status = b.status := rfl

/-! ### `GbBlock.memWrite` -/

@[simp] theorem GbBlock.memWrite_mem (g : GbBlock) (x : Word) (k : Byte) :
    (g.memWrite x k).mem = g.mem.write x.toNat k := rfl
@[simp] theorem GbBlock.memWrite_a (g : GbBlock) (x : Word) (k : Byte) :
    (g.memWrite x k).a = g.a := rfl
@[simp] theorem GbBlock.memWrite_f (g : GbBlock) (x : Word) (k : Byte) :
    (g.memWrite x k).f = g.f := rfl
@[simp] theorem GbBlock.memWrite_b (g : GbBlock) (x : Word) (k : Byte) :
    (g.memWrite x k).b = g.b := rfl
@[simp] theorem GbBlock.memWrite_c (g : GbBlock) (x : Word) (k : Byte) :
    (g.memWrite x k).c = g.c := rfl
@[simp] theorem GbBlock.memWrite_d (g : GbBlock) (x : Word) (k : Byte) :
    (g.memWrite x k).d = g.d := rfl
@[simp] theorem GbBlock.memWrite_e (g : GbBlock) (x : Word) (k : Byte) :
    (g.memWrite x k).e = g.e := rfl
@[simp] theorem GbBlock.memWrite_h (g : GbBlock) (x : Word) (k : Byte) :
    (g.memWrite x k).h = g.h := rfl
@[simp] theorem GbBlock.memWrite_l (g : GbBlock) (x : Word) (k : Byte) :
    (g.memWrite x k).l = g.l := rfl
@[simp] theorem GbBlock.memWrite_pc (g : GbBlock) (x : Word) (k : Byte) :
    (g.memWrite x k).pc = g.pc := rfl
@[simp] theorem GbBlock.memWrite_sp (g : GbBlock) (x : Word) (k : Byte) :
    (g.memWrite x k).sp = g.sp := rfl
@[simp] theorem GbBlock.memWrite_ime (g : GbBlock) (x : Word) (k : Byte) :
    (g.memWrite x k).ime = g.ime := rfl
@[simp] theorem GbBlock.memWrite_key (g : GbBlock) (x : Word) (k : Byte) :
    (g.memWrite x k).key = g.key := rfl
@[simp] theorem GbBlock.memWrite_status (g : GbBlock) (x : Word) (k : Byte) :
    (g.memWrite x k).status = g.status := rfl

/-! ### `GbBlock.writeF` -/

@[simp] theorem GbBlock.writeF_mem (g : GbBlock) (k : Byte) :
    (g.writeF k).mem = g.mem := rfl
@[simp] theorem GbBlock.writeF_a (g : GbBlock) (k : Byte) :
    (g.writeF k).a = g.a := rfl
@[simp] theorem GbBlock.writeF_f (g : GbBlock) (k : Byte) :
    (g.writeF k).f = k &&& 0xF0 := rfl
@[simp] theorem GbBlock.writeF_b (g : GbBlock) (k : Byte) :
    (g.writeF k).b = g.b := rfl
@[simp] theorem GbBlock.writeF_c (g : GbBlock) (k : Byte) :
    (g.writeF k).c = g.c := rfl
@[simp] theorem GbBlock.writeF_d (g : GbBlock) (k : Byte) :
    (g.writeF k).d = g.d := rfl
@[simp] theorem GbBlock.writeF_e (g : GbBlock) (k : Byte) :
    (g.writeF k).e = g.e := rfl
@[simp] theorem GbBlock.writeF_h (g : GbBlock) (k : Byte) :
    (g.writeF k).h = g.h := rfl
@[simp] theorem GbBlock.writeF_l (g : GbBlock) (k : Byte) :
    (g.writeF k).l = g.l := rfl
@[simp] theorem GbBlock.writeF_pc (g : GbBlock) (k : Byte) :
    (g.writeF k).pc = g.pc := rfl
@[simp] theorem GbBlock.writeF_sp (g : GbBlock) (k : Byte) :
    (g.writeF k).sp = g.sp := rfl
@[simp] theorem GbBlock.writeF_ime (g : GbBlock) (k : Byte) :
    (g.writeF k).ime = g.ime := rfl
@[simp] theorem GbBlock.writeF_key (g : GbBlock) (k : Byte) :
    (g.writeF k).key = g.key := rfl
@[simp] theorem GbBlock.writeF_status (g : GbBlock) (k : Byte) :
    (g.writeF k).status = g.status := rfl

/-! ### `GbBlock.setBc` -/

@[simp] theorem GbBlock.setBc_mem (g : GbBlock) (k : Word) :
    (g.setBc k).mem = g.mem := rfl
@[simp] theorem GbBlock.setBc_a (g : GbBlock) (k : Word) :
    (g.setBc k).a = g.a := rfl
@[simp] theorem GbBlock.setBc_f (g : GbBlock) (k : Word) :
    (g.setBc k).f = g.f := rfl
@[simp] theorem GbBlock.setBc_b (g : GbBlock) (k : Word) :
    (g.setBc k).b = hiByte k := rfl
@[simp] theorem GbBlock.setBc_c (g : GbBlock) (k : Word) :
    (g.setBc k).c = loByte k := rfl
@[simp] theorem GbBlock.setBc_d (g : GbBlock) (k : Word) :
    (g.setBc k).d = g.d := rfl
@[simp] theorem GbBlock.setBc_e (g : GbBlock) (k : Word) :
    (g.setBc k).e = g.e := rfl
@[simp] theorem GbBlock.setBc_h (g : GbBlock) (k : Word) :
    (g.setBc k).h = g.h := rfl
@[simp] theorem GbBlock.setBc_l (g : GbBlock) (k : Word) :
    (g.setBc k).l = g.l := rfl
@[simp] theorem GbBlock.setBc_pc (g : GbBlock) (k : Word) :
    (g.setBc k).pc = g.pc := rfl
@[simp] theorem GbBlock.setBc_sp (g : GbBlock) (k : Word) :
    (g.setBc k).sp = g.sp := rfl
@[simp] theorem GbBlock.setBc_ime (g : GbBlock) (k : Word) :
    (g.setBc k).ime = g.ime := rfl
@[simp] theorem GbBlock.setBc_key (g : GbBlock) (k : Word) :
    (g.setBc k).key = g.key := rfl
@[simp] theorem GbBlock.setBc_status (g : GbBlock) (k : Word) :
    (g.setBc k).status = g.status := rfl

/-! ### `GbBlock.setDe` -/

@[simp] theorem GbBlock.setDe_mem (g : GbBlock) (k : Word) :
    (g.setDe k).mem = g.mem := rfl
@[simp] theorem GbBlock.setDe_a (g : GbBlock) (k : Word) :
    (g.setDe k).a = g.a := rfl
@[simp] theorem GbBlock.setDe_f (g : GbBlock) (k : Word) :
    (g.setDe k).f = g.f := rfl
@[simp] theorem GbBlock.setDe_b (g : GbBlock) (k : Word) :
    (g.setDe k).b = g.b := rfl
@[simp] theorem GbBlock.setDe_c (g : GbBlock) (k : Word) :
    (g.setDe k).c = g.c := rfl
@[simp] theorem GbBlock.setDe_d (g : GbBlock) (k : Word) :
    (g.setDe k).d = hiByte k := rfl
@[simp] theorem GbBlock.setDe_e (g : GbBlock) (k : Word) :
    (g.setDe k).e = loByte k := rfl
@[simp] theorem GbBlock.setDe_h (g : GbBlock) (k : Word) :
    (g.setDe k).h = g.h := rfl
@[simp] theorem GbBlock.setDe_l (g : GbBlock) (k : Word) :
    (g.setDe k).l = g.l := rfl
@[simp] theorem GbBlock.setDe_pc (g : GbBlock) (k : Word) :
    (g.setDe k).pc = g.pc := rfl
@[simp] theorem GbBlock.setDe_sp (g : GbBlock) (k : Word) :
    (g.setDe k).sp = g.sp := rfl
@[simp] theorem GbBlock.setDe_ime (g : GbBlock) (k : Word) :
    (g.setDe k).ime = g.ime := rfl
@[simp] theorem GbBlock.setDe_key (g : GbBlock) (k : Word) :
    (g.setDe k).key = g.key := rfl
@[simp] theorem GbBlock.setDe_status (g : GbBlock) (k : Word) :
    (g.setDe k).status = g.status := rfl

/-! ### `GbBlock.setHl` -/

@[simp] theorem GbBlock.setHl_mem (g : GbBlock) (k : Word) :
    (g.setHl k).mem = g.mem := rfl
@[simp] theorem GbBlock.setHl_a (g : GbBlock) (k : Word) :
    (g.setHl k).a = g.a := rfl
@[simp] theorem GbBlock.setHl_f (g : GbBlock) (k : Word) :
    (g.setHl k).f = g.f := rfl
@[simp] theorem GbBlock.setHl_b (g : GbBlock) (k : Word) :
    (g.setHl k).b = g.b := rfl
@[simp] theorem GbBlock.setHl_c (g : GbBlock) (k : Word) :
    (g.setHl k).c = g.c := rfl
@[simp] theorem GbBlock.setHl_d (g : GbBlock) (k : Word) :
    (g.setHl k).d = g.d := rfl
@[simp] theorem GbBlock.setHl_e (g : GbBlock) (k : Word) :
    (g.setHl k).e = g.e := rfl
@[simp] theorem GbBlock.setHl_h (g : GbBlock) (k : Word) :
    (g.setHl k).h = hiByte k := rfl
@[simp] theorem GbBlock.setHl_l (g : GbBlock) (k : Word) :
    (g.setHl k).l = loByte k := rfl
@[simp] theorem GbBlock.setHl_pc (g : GbBlock) (k : Word) :
    (g.setHl k).pc = g.pc := rfl
@[simp] theorem GbBlock.setHl_sp (g : GbBlock) (k : Word) :
    (g.setHl k).sp = g.sp := rfl
@[simp] theorem GbBlock.setHl_ime (g : GbBlock) (k : Word) :
    (g.setHl k).ime = g.ime := rfl
@[simp] theorem GbBlock.setHl_key (g : GbBlock) (k : Word) :
    (g.setHl k).key = g.key := rfl
@[simp] theorem GbBlock.setHl_status (g : GbBlock) (k : Word) :
    (g.setHl k).status = g.status := rfl

/-! ### `GbBlock.setAf` -/

@[simp] theorem GbBlock.setAf_mem (g : GbBlock) (k : Word) :
    (g.setAf k).mem = g.mem := rfl
@[simp] theorem GbBlock.setAf_a (g : GbBlock) (k : Word) :
    (g.setAf k).a = hiByte k := rfl
@[simp] theorem GbBlock.setAf_f (g : GbBlock) (k : Word) :
    (g.setAf k).f = loByte k &&& 0xF0 := rfl
@[simp] theorem GbBlock.setAf_b (g : GbBlock) (k : Word) :
    (g.setAf k).b = g.b := rfl
@[simp] theorem GbBlock.setAf_c (g : GbBlock) (k : Word) :
    (g.setAf k).c = g.c := rfl
@[simp] theorem GbBlock.setAf_d (g : GbBlock) (k : Word) :
    (g.setAf k).d = g.d := rfl
@[simp] theorem GbBlock.setAf_e (g : GbBlock) (k : Word) :
    (g.setAf k).e = g.e := rfl
@[simp] theorem GbBlock.setAf_h (g : GbBlock) (k : Word) :
    (g.setAf k).h = g.h := rfl
@[simp] theorem GbBlock.setAf_l (g : GbBlock) (k : Word) :
    (g.setAf k).l = g.l := rfl
@[simp] theorem GbBlock.setAf_pc (g : GbBlock) (k : Word) :
    (g.setAf k).pc = g.pc := rfl
@[simp] theorem GbBlock.setAf_sp (g : GbBlock) (k : Word) :
    (g.setAf k).sp = g.sp := rfl
@[simp] theorem GbBlock.setAf_ime (g : GbBlock) (k : Word) :
    (g.setAf k).ime = g.ime := rfl
@[simp] theorem GbBlock.setAf_key (g : GbBlock) (k : Word) :
    (g.setAf k).key = g.key := rfl
@[simp] theorem GbBlock.setAf_status (g : GbBlock) (k : Word) :
    (g.setAf k).status = g.status := rfl

/-! ### `GbBlock.advance` -/

@[simp] theorem GbBlock.advance_mem (g : GbBlock) (k : Nat) :
    (g.advance k).mem = g.mem := rfl
@[simp] theorem GbBlock.advance_a (g : GbBlock) (k : Nat) :
    (g.advance k).a = g.a := rfl
@[simp] theorem GbBlock.advance_f (g : GbBlock) (k : Nat) :
    (g.advance k).f = g.f := rfl
@[simp] theorem GbBlock.advance_b (g : GbBlock) (k : Nat) :
    (g.advance k).b = g.b := rfl
@[simp] theorem GbBlock.advance_c (g : GbBlock) (k : Nat) :
    (g.advance k).c = g.c := rfl
@[simp] theorem GbBlock.advance_d (g : GbBlock) (k : Nat) :
    (g.advance k).d = g.d := rfl
@[simp] theorem GbBlock.advance_e (g : GbBlock) (k : Nat) :
    (g.advance k).e = g.e := rfl
@[simp] theorem GbBlock.advance_h (g : GbBlock) (k : Nat) :
    (g.advance k).h = g.h := rfl
@[simp] theorem GbBlock.advance_l (g : GbBlock) (k : Nat) :
    (g.advance k).l = g.l := rfl
@[simp] theorem GbBlock.advance_pc (g : GbBlock) (k : Nat) :
    (g.advance k).pc = g.pc + BitVec.ofNat 16 k := rfl
@[simp] theorem GbBlock.advance_sp (g : GbBlock) (k : Nat) :
    (g.advance k).sp = g.sp := rfl
@[simp] theorem GbBlock.advance_ime (g : GbBlock) (k : Nat) :
    (g.advance k).ime = g.ime := rfl
@[simp] theorem GbBlock.advance_key (g : GbBlock) (k : Nat) :
    (g.advance k).key = g.key := rfl
@[simp] theorem GbBlock.advance_status (g : GbBlock) (k : Nat) :
    (g.advance k).status = g.status := rfl

/-! ### `GbBlock.popped` -/

@[simp] theorem GbBlock.popped_mem (g : GbBlock) :
    (g.popped).mem = g.mem := rfl
@[simp] theorem GbBlock.popped_a (g : GbBlock) :
    (g.popped).a = g.a := rfl
@[simp] theorem GbBlock.popped_f (g : GbBlock) :
    (g.popped).f = g.f := rfl
@[simp] theorem GbBlock.popped_b (g : GbBlock) :
    (g.popped).b = g.b := rfl
@[simp] theorem GbBlock.popped_c (g : GbBlock) :
    (g.popped).c = g.c := rfl
@[simp] theorem GbBlock.popped_d (g : GbBlock) :
    (g.popped).d = g.d := rfl
@[simp] theorem GbBlock.popped_e (g : GbBlock) :
    (g.popped).e = g.e := rfl
@[simp] theorem GbBlock.popped_h (g : GbBlock) :
    (g.popped).h = g.h := rfl
@[simp] theorem GbBlock.popped_l (g : GbBlock) :
    (g.popped).l = g.l := rfl
@[simp] theorem GbBlock.popped_pc (g : GbBlock) :
    (g.popped).pc = g.pc := rfl
@[simp] theorem GbBlock.popped_sp (g : GbBlock) :
    (g.popped).sp = g.sp + 2 := rfl
@[simp] theorem GbBlock.popped_ime (g : GbBlock) :
    (g.popped).ime = g.ime := rfl
@[simp] theorem GbBlock.popped_key (g : GbBlock) :
    (g.popped).key = g.key := rfl
@[simp] theorem GbBlock.popped_status (g : GbBlock) :
    (g.popped).status = g.status := rfl

/-! ### `GbBlock.push16` -/

@[simp] theorem GbBlock.push16_mem (g : GbBlock) (k : Word) :
    (g.push16 k).mem = (g.mem.write (g.sp - 1).toNat (hiByte k)).write (g.sp - 1 - 1).toNat (loByte k) := rfl
@[simp] theorem GbBlock.push16_a (g : GbBlock) (k : Word) :
    (g.push16 k).a = g.a := rfl
@[simp] theorem GbBlock.push16_f (g : GbBlock) (k : Word) :
    (g.push16 k).f = g.f := rfl
@[simp] theorem GbBlock.push16_b (g : GbBlock) (k : Word) :
    (g.push16 k).b = g.b := rfl
@[simp] theorem GbBlock.push16_c (g : GbBlock) (k : Word) :
    (g.push16 k).c = g.c := rfl
@[simp] theorem GbBlock.push16_d (g : GbBlock) (k : Word) :
    (g.push16 k).d = g.d := rfl
@[simp] theorem GbBlock.push16_e (g : GbBlock) (k : Word) :
    (g.push16 k).e = g.e := rfl
@[simp] theorem GbBlock.push16_h (g : GbBlock) (k : Word) :
    (g.push16 k).h = g.h := rfl
@[simp] theorem GbBlock.push16_l (g : GbBlock) (k : Word) :
    (g.push16 k).l = g.l := rfl
@[simp] theorem GbBlock.push16_pc (g : GbBlock) (k : Word) :
    (g.push16 k).pc = g.pc := rfl
@[simp] theorem GbBlock.push16_sp (g : GbBlock) (k : Word) :
    (g.push16 k).sp = g.sp - 1 - 1 := rfl
@[simp] theorem GbBlock.push16_ime (g : GbBlock) (k : Word) :
    (g.push16 k).ime = g.ime := rfl
@[simp] theorem GbBlock.push16_key (g : GbBlock) (k : Word) :
    (g.push16 k).key = g.key := rfl
@[simp] theorem GbBlock.push16_status (g : GbBlock) (k : Word) :
    (g.push16 k).status = g.status := rfl

/-! ### `GbBlock.jumpBy` -/

@[simp] theorem GbBlock.jumpBy_mem (g : GbBlock) (k : Byte) :
    (g.jumpBy k).mem = g.mem := rfl
@[simp] theorem GbBlock.jumpBy_a (g : GbBlock) (k : Byte) :
    (g.jumpBy k).a = g.a := rfl
@[simp] theorem GbBlock.jumpBy_f (g : GbBlock) (k : Byte) :
    (g.jumpBy k).f = g.f := rfl
@[simp] theorem GbBlock.jumpBy_b (g : GbBlock) (k : Byte) :
    (g.jumpBy k).b = g.b := rfl
@[simp] theorem GbBlock.jumpBy_c (g : GbBlock) (k : Byte) :
    (g.jumpBy k).c = g.c := rfl
@[simp] theorem GbBlock.jumpBy_d (g : GbBlock) (k : Byte) :
    (g.jumpBy k).d = g.d := rfl
@[simp] theorem GbBlock.jumpBy_e (g : GbBlock) (k : Byte) :
    (g.jumpBy k).e = g.e := rfl
@[simp] theorem GbBlock.jumpBy_h (g : GbBlock) (k : Byte) :
    (g.jumpBy k).h = g.h := rfl
@[simp] theorem GbBlock.jumpBy_l (g : GbBlock) (k : Byte) :
    (g.jumpBy k).l = g.l := rfl
@[simp] theorem GbBlock.jumpBy_pc (g : GbBlock) (k : Byte) :
    (g.jumpBy k).pc = g.pc + k.signExtend 16 := rfl
@[simp] theorem GbBlock.jumpBy_sp (g : GbBlock) (k : Byte) :
    (g.jumpBy k).sp = g.sp := rfl
@[simp] theorem GbBlock.jumpBy_ime (g : GbBlock) (k : Byte) :
    (g.jumpBy k).ime = g.ime := rfl
@[simp] theorem GbBlock.jumpBy_key (g : GbBlock) (k : Byte) :
    (g.jumpBy k).key = g.key := rfl
@[simp] theorem GbBlock.jumpBy_status (g : GbBlock) (k : Byte) :
    (g.jumpBy k).status = g.status := rfl

/-! ### `GbBlock.halt` -/

@[simp] theorem GbBlock.halt_mem (g : GbBlock) (c : HaltCause) (info : Word) :
    (g.halt c info).mem = g.mem := rfl
@[simp] theorem GbBlock.halt_a (g : GbBlock) (c : HaltCause) (info : Word) :
    (g.halt c info).a = g.a := rfl
@[simp] theorem GbBlock.halt_f (g : GbBlock) (c : HaltCause) (info : Word) :
    (g.halt c info).f = g.f := rfl
@[simp] theorem GbBlock.halt_b (g : GbBlock) (c : HaltCause) (info : Word) :
    (g.halt c info).b = g.b := rfl
@[simp] theorem GbBlock.halt_c (g : GbBlock) (c : HaltCause) (info : Word) :
    (g.halt c info).c = g.c := rfl
@[simp] theorem GbBlock.halt_d (g : GbBlock) (c : HaltCause) (info : Word) :
    (g.halt c info).d = g.d := rfl
@[simp] theorem GbBlock.halt_e (g : GbBlock) (c : HaltCause) (info : Word) :
    (g.halt c info).e = g.e := rfl
@[simp] theorem GbBlock.halt_h (g : GbBlock) (c : HaltCause) (info : Word) :
    (g.halt c info).h = g.h := rfl
@[simp] theorem GbBlock.halt_l (g : GbBlock) (c : HaltCause) (info : Word) :
    (g.halt c info).l = g.l := rfl
@[simp] theorem GbBlock.halt_pc (g : GbBlock) (c : HaltCause) (info : Word) :
    (g.halt c info).pc = g.pc := rfl
@[simp] theorem GbBlock.halt_sp (g : GbBlock) (c : HaltCause) (info : Word) :
    (g.halt c info).sp = g.sp := rfl
@[simp] theorem GbBlock.halt_ime (g : GbBlock) (c : HaltCause) (info : Word) :
    (g.halt c info).ime = g.ime := rfl
@[simp] theorem GbBlock.halt_key (g : GbBlock) (c : HaltCause) (info : Word) :
    (g.halt c info).key = g.key := rfl
@[simp] theorem GbBlock.halt_status (g : GbBlock) (c : HaltCause) (info : Word) :
    (g.halt c info).status = g.status.halt c info := rfl

/-! ### `GbBlock.dispatched` -/

@[simp] theorem GbBlock.dispatched_mem (g : GbBlock) (op : Word) :
    (g.dispatched op).mem = g.mem := rfl
@[simp] theorem GbBlock.dispatched_a (g : GbBlock) (op : Word) :
    (g.dispatched op).a = g.a := rfl
@[simp] theorem GbBlock.dispatched_f (g : GbBlock) (op : Word) :
    (g.dispatched op).f = g.f := rfl
@[simp] theorem GbBlock.dispatched_b (g : GbBlock) (op : Word) :
    (g.dispatched op).b = g.b := rfl
@[simp] theorem GbBlock.dispatched_c (g : GbBlock) (op : Word) :
    (g.dispatched op).c = g.c := rfl
@[simp] theorem GbBlock.dispatched_d (g : GbBlock) (op : Word) :
    (g.dispatched op).d = g.d := rfl
@[simp] theorem GbBlock.dispatched_e (g : GbBlock) (op : Word) :
    (g.dispatched op).e = g.e := rfl
@[simp] theorem GbBlock.dispatched_h (g : GbBlock) (op : Word) :
    (g.dispatched op).h = g.h := rfl
@[simp] theorem GbBlock.dispatched_l (g : GbBlock) (op : Word) :
    (g.dispatched op).l = g.l := rfl
@[simp] theorem GbBlock.dispatched_pc (g : GbBlock) (op : Word) :
    (g.dispatched op).pc = g.pc + BitVec.ofNat 16 1 := rfl
@[simp] theorem GbBlock.dispatched_sp (g : GbBlock) (op : Word) :
    (g.dispatched op).sp = g.sp := rfl
@[simp] theorem GbBlock.dispatched_ime (g : GbBlock) (op : Word) :
    (g.dispatched op).ime = g.ime := rfl
@[simp] theorem GbBlock.dispatched_key (g : GbBlock) (op : Word) :
    (g.dispatched op).key = g.key := rfl
@[simp] theorem GbBlock.dispatched_status (g : GbBlock) (op : Word) :
    (g.dispatched op).status = g.status.record op := rfl

/-! ### `GbBlock.noEntry` -/

@[simp] theorem GbBlock.noEntry_mem (g : GbBlock) (op : Word) :
    (g.noEntry op).mem = g.mem := rfl
@[simp] theorem GbBlock.noEntry_a (g : GbBlock) (op : Word) :
    (g.noEntry op).a = g.a := rfl
@[simp] theorem GbBlock.noEntry_f (g : GbBlock) (op : Word) :
    (g.noEntry op).f = g.f := rfl
@[simp] theorem GbBlock.noEntry_b (g : GbBlock) (op : Word) :
    (g.noEntry op).b = g.b := rfl
@[simp] theorem GbBlock.noEntry_c (g : GbBlock) (op : Word) :
    (g.noEntry op).c = g.c := rfl
@[simp] theorem GbBlock.noEntry_d (g : GbBlock) (op : Word) :
    (g.noEntry op).d = g.d := rfl
@[simp] theorem GbBlock.noEntry_e (g : GbBlock) (op : Word) :
    (g.noEntry op).e = g.e := rfl
@[simp] theorem GbBlock.noEntry_h (g : GbBlock) (op : Word) :
    (g.noEntry op).h = g.h := rfl
@[simp] theorem GbBlock.noEntry_l (g : GbBlock) (op : Word) :
    (g.noEntry op).l = g.l := rfl
@[simp] theorem GbBlock.noEntry_pc (g : GbBlock) (op : Word) :
    (g.noEntry op).pc = g.pc + BitVec.ofNat 16 1 := rfl
@[simp] theorem GbBlock.noEntry_sp (g : GbBlock) (op : Word) :
    (g.noEntry op).sp = g.sp := rfl
@[simp] theorem GbBlock.noEntry_ime (g : GbBlock) (op : Word) :
    (g.noEntry op).ime = g.ime := rfl
@[simp] theorem GbBlock.noEntry_key (g : GbBlock) (op : Word) :
    (g.noEntry op).key = g.key := rfl
@[simp] theorem GbBlock.noEntry_status (g : GbBlock) (op : Word) :
    (g.noEntry op).status = g.status.invalid op := rfl

/-! ### `GbBlock.setAcc` -/

@[simp] theorem GbBlock.setAcc_mem (g : GbBlock) (r : Byte × Byte) :
    (g.setAcc r).mem = g.mem := rfl
@[simp] theorem GbBlock.setAcc_a (g : GbBlock) (r : Byte × Byte) :
    (g.setAcc r).a = r.1 := rfl
@[simp] theorem GbBlock.setAcc_f (g : GbBlock) (r : Byte × Byte) :
    (g.setAcc r).f = r.2 &&& 0xF0 := rfl
@[simp] theorem GbBlock.setAcc_b (g : GbBlock) (r : Byte × Byte) :
    (g.setAcc r).b = g.b := rfl
@[simp] theorem GbBlock.setAcc_c (g : GbBlock) (r : Byte × Byte) :
    (g.setAcc r).c = g.c := rfl
@[simp] theorem GbBlock.setAcc_d (g : GbBlock) (r : Byte × Byte) :
    (g.setAcc r).d = g.d := rfl
@[simp] theorem GbBlock.setAcc_e (g : GbBlock) (r : Byte × Byte) :
    (g.setAcc r).e = g.e := rfl
@[simp] theorem GbBlock.setAcc_h (g : GbBlock) (r : Byte × Byte) :
    (g.setAcc r).h = g.h := rfl
@[simp] theorem GbBlock.setAcc_l (g : GbBlock) (r : Byte × Byte) :
    (g.setAcc r).l = g.l := rfl
@[simp] theorem GbBlock.setAcc_pc (g : GbBlock) (r : Byte × Byte) :
    (g.setAcc r).pc = g.pc := rfl
@[simp] theorem GbBlock.setAcc_sp (g : GbBlock) (r : Byte × Byte) :
    (g.setAcc r).sp = g.sp := rfl
@[simp] theorem GbBlock.setAcc_ime (g : GbBlock) (r : Byte × Byte) :
    (g.setAcc r).ime = g.ime := rfl
@[simp] theorem GbBlock.setAcc_key (g : GbBlock) (r : Byte × Byte) :
    (g.setAcc r).key = g.key := rfl
@[simp] theorem GbBlock.setAcc_status (g : GbBlock) (r : Byte × Byte) :
    (g.setAcc r).status = g.status := rfl

/-! ### `GbBlock.setFlagsOnly` -/

@[simp] theorem GbBlock.setFlagsOnly_mem (g : GbBlock) (r : Byte × Byte) :
    (g.setFlagsOnly r).mem = g.mem := rfl
@[simp] theorem GbBlock.setFlagsOnly_a (g : GbBlock) (r : Byte × Byte) :
    (g.setFlagsOnly r).a = g.a := rfl
@[simp] theorem GbBlock.setFlagsOnly_f (g : GbBlock) (r : Byte × Byte) :
    (g.setFlagsOnly r).f = r.2 &&& 0xF0 := rfl
@[simp] theorem GbBlock.setFlagsOnly_b (g : GbBlock) (r : Byte × Byte) :
    (g.setFlagsOnly r).b = g.b := rfl
@[simp] theorem GbBlock.setFlagsOnly_c (g : GbBlock) (r : Byte × Byte) :
    (g.setFlagsOnly r).c = g.c := rfl
@[simp] theorem GbBlock.setFlagsOnly_d (g : GbBlock) (r : Byte × Byte) :
    (g.setFlagsOnly r).d = g.d := rfl
@[simp] theorem GbBlock.setFlagsOnly_e (g : GbBlock) (r : Byte × Byte) :
    (g.setFlagsOnly r).e = g.e := rfl
@[simp] theorem GbBlock.setFlagsOnly_h (g : GbBlock) (r : Byte × Byte) :
    (g.setFlagsOnly r).h = g.h := rfl
@[simp] theorem GbBlock.setFlagsOnly_l (g : GbBlock) (r : Byte × Byte) :
    (g.setFlagsOnly r).l = g.l := rfl
@[simp] theorem GbBlock.setFlagsOnly_pc (g : GbBlock) (r : Byte × Byte) :
    (g.setFlagsOnly r).pc = g.pc := rfl
@[simp] theorem GbBlock.setFlagsOnly_sp (g : GbBlock) (r : Byte × Byte) :
    (g.setFlagsOnly r).sp = g.sp := rfl
@[simp] theorem GbBlock.setFlagsOnly_ime (g : GbBlock) (r : Byte × Byte) :
    (g.setFlagsOnly r).ime = g.ime := rfl
@[simp] theorem GbBlock.setFlagsOnly_key (g : GbBlock) (r : Byte × Byte) :
    (g.setFlagsOnly r).key = g.key := rfl
@[simp] theorem GbBlock.setFlagsOnly_status (g : GbBlock) (r : Byte × Byte) :
    (g.setFlagsOnly r).status = g.status := rfl

/-! ### `GbBlock.addToHl` -/

@[simp] theorem GbBlock.addToHl_mem (g : GbBlock) (k : Word) :
    (g.addToHl k).mem = g.mem := rfl
@[simp] theorem GbBlock.addToHl_a (g : GbBlock) (k : Word) :
    (g.addToHl k).a = g.a := rfl
@[simp] theorem GbBlock.addToHl_b (g : GbBlock) (k : Word) :
    (g.addToHl k).b = g.b := rfl
@[simp] theorem GbBlock.addToHl_c (g : GbBlock) (k : Word) :
    (g.addToHl k).c = g.c := rfl
@[simp] theorem GbBlock.addToHl_d (g : GbBlock) (k : Word) :
    (g.addToHl k).d = g.d := rfl
@[simp] theorem GbBlock.addToHl_e (g : GbBlock) (k : Word) :
    (g.addToHl k).e = g.e := rfl
@[simp] theorem GbBlock.addToHl_pc (g : GbBlock) (k : Word) :
    (g.addToHl k).pc = g.pc := rfl
@[simp] theorem GbBlock.addToHl_sp (g : GbBlock) (k : Word) :
    (g.addToHl k).sp = g.sp := rfl
@[simp] theorem GbBlock.addToHl_ime (g : GbBlock) (k : Word) :
    (g.addToHl k).ime = g.ime := rfl
@[simp] theorem GbBlock.addToHl_key (g : GbBlock) (k : Word) :
    (g.addToHl k).key = g.key := rfl
@[simp] theorem GbBlock.addToHl_status (g : GbBlock) (k : Word) :
    (g.addToHl k).status = g.status := rfl

/-! ### `GbBlock.testBit` -/

@[simp] theorem GbBlock.testBit_mem (g : GbBlock) (x : BitVec 3) (k : Byte) :
    (g.testBit x k).mem = g.mem := rfl
@[simp] theorem GbBlock.testBit_a (g : GbBlock) (x : BitVec 3) (k : Byte) :
    (g.testBit x k).a = g.a := rfl
@[simp] theorem GbBlock.testBit_b (g : GbBlock) (x : BitVec 3) (k : Byte) :
    (g.testBit x k).b = g.b := rfl
@[simp] theorem GbBlock.testBit_c (g : GbBlock) (x : BitVec 3) (k : Byte) :
    (g.testBit x k).c = g.c := rfl
@[simp] theorem GbBlock.testBit_d (g : GbBlock) (x : BitVec 3) (k : Byte) :
    (g.testBit x k).d = g.d := rfl
@[simp] theorem GbBlock.testBit_e (g : GbBlock) (x : BitVec 3) (k : Byte) :
    (g.testBit x k).e = g.e := rfl
@[simp] theorem GbBlock.testBit_h (g : GbBlock) (x : BitVec 3) (k : Byte) :
    (g.testBit x k).h = g.h := rfl
@[simp] theorem GbBlock.testBit_l (g : GbBlock) (x : BitVec 3) (k : Byte) :
    (g.testBit x k).l = g.l := rfl
@[simp] theorem GbBlock.testBit_pc (g : GbBlock) (x : BitVec 3) (k : Byte) :
    (g.testBit x k).pc = g.pc := rfl
@[simp] theorem GbBlock.testBit_sp (g : GbBlock) (x : BitVec 3) (k : Byte) :
    (g.testBit x k).sp = g.sp := rfl
@[simp] theorem GbBlock.testBit_ime (g : GbBlock) (x : BitVec 3) (k : Byte) :
    (g.testBit x k).ime = g.ime := rfl
@[simp] theorem GbBlock.testBit_key (g : GbBlock) (x : BitVec 3) (k : Byte) :
    (g.testBit x k).key = g.key := rfl
@[simp] theorem GbBlock.testBit_status (g : GbBlock) (x : BitVec 3) (k : Byte) :
    (g.testBit x k).status = g.status := rfl

/-! ### `Engine.putActive` -/

@[simp] theorem Engine.putActive_tableBuilt {β : Type} (e : Engine β) (b : β) :
    (e.putActive b).tableBuilt = e.tableBuilt := rfl
@[simp] theorem Engine.putActive_ctx {β : Type} (e : Engine β) (b : β) :
    (e.putActive b).ctx = e.ctx := rfl
@[simp] theorem Engine.putActive_nextId {β : Type} (e : Engine β) (b : β) :
    (e.putActive b).nextId = e.nextId := rfl

/-! ### `Engine.build` -/

@[simp] theorem Engine.build_tableBuilt {β : Type} (e : Engine β) :
    (e.build).tableBuilt = true := rfl
@[simp] theorem Engine.build_ctx {β : Type} (e : Engine β) :
    (e.build).ctx = e.ctx := rfl
@[simp] theorem Engine.build_blocks {β : Type} (e : Engine β) :
    (e.build).blocks = e.blocks := rfl
@[simp] theorem Engine.build_nextId {β : Type} (e : Engine β) :
    (e.build).nextId = e.nextId := rfl

/-! ### `Engine.addBlock` -/

@[simp] theorem Engine.addBlock_tableBuilt {β : Type} (e : Engine β) (b : β) :
    (e.addBlock b).tableBuilt = e.tableBuilt := rfl
@[simp] theorem Engine.addBlock_ctx {β : Type} (e : Engine β) (b : β) :
    (e.addBlock b).ctx = e.ctx := rfl
@[simp] theorem Engine.addBlock_blocks {β : Type} (e : Engine β) (b : β) :
    (e.addBlock b).blocks = e.blocks ++ [(e.nextId, b)] := rfl
@[simp] theorem Engine.addBlock_nextId {β : Type} (e : Engine β) (b : β) :
    (e.addBlock b).nextId = e.nextId + 1 := rfl

end Sys2Proof.Machine
end

