-- ==== Sys2Proof/Laws/Operands.lean ====
section
/-! SUPPORT. What reading an operand gives after writing one. -/

namespace Sys2Proof.Machine

/-! ## CHIP-8 registers -/

theorem C8Block.getV_setV (b : C8Block) (i j : BitVec 4) (v : Byte) :
    (b.setV i v).getV j = if j = i then v else b.getV j := by
  simp only [C8Block.getV, C8Block.setV, Vector.getElem_set]
  by_cases h : j = i
  · simp [h]
  · have : ¬ i.toNat = j.toNat := fun hn => h (BitVec.eq_of_toNat_eq hn.symm)
    simp [h, this]

/-- A result and then a flag: when x is 15 the flag remains (R160). -/
theorem C8Block.getV_setVWithFlag (b : C8Block) (i j : BitVec 4) (v : Byte) (flag : Bool) :
    (b.setVWithFlag i v flag).getV j =
      if j = 0xF then (if flag then 1 else 0) else if j = i then v else b.getV j := by
  simp only [C8Block.setVWithFlag, C8Block.getV_setV]

theorem C8Block.frame_setV (b : C8Block) (i : BitVec 4) (v : Byte) : C8Frame [.v] b (b.setV i v) := by
  intro k hk
  cases k <;> first | rfl | exact fun _ => rfl | (simp at hk)

theorem C8Block.frame_setVWithFlag (b : C8Block) (i : BitVec 4) (v : Byte) (flag : Bool) :
    C8Frame [.v] b (b.setVWithFlag i v flag) := by
  intro k hk
  cases k <;> first | rfl | exact fun _ => rfl | (simp at hk)

theorem C8Block.frame_skipIf (b : C8Block) (c : Bool) : C8Frame [.pc] b (b.skipIf c) := by
  intro k hk
  cases c <;> cases k <;> first | rfl | exact fun _ => rfl | (simp at hk)

theorem C8Block.skipIf_pc (b : C8Block) (c : Bool) :
    (b.skipIf c).pc = if c then b.pc + 2 else b.pc := by cases c <;> rfl

theorem C8Frame.refl (l : List C8Field) (b : C8Block) : C8Frame l b b := by
  intro k _
  cases k <;> first | rfl | exact fun _ => rfl

theorem GbFrame.refl (l : List GbField) (g : GbBlock) : GbFrame l g g := by
  intro k _
  cases k <;> first | rfl | exact fun _ => rfl

/-! ## GB pairs -/

theorem pairUp_toNat (hi lo : Byte) : (pairUp hi lo).toNat = 256 * hi.toNat + lo.toNat := by
  simp only [pairUp, BitVec.toNat_append]
  rw [← Nat.shiftLeft_add_eq_or_of_lt lo.isLt, Nat.shiftLeft_eq]
  omega

theorem leWord_toNat (lo hi : Byte) : (leWord lo hi).toNat = 256 * hi.toNat + lo.toNat :=
  pairUp_toNat hi lo

theorem beWord_toNat (hi lo : Byte) : (beWord hi lo).toNat = 256 * hi.toNat + lo.toNat :=
  pairUp_toNat hi lo

theorem hiByte_toNat (v : Word) : (hiByte v).toNat = v.toNat / 256 := by
  have := v.isLt
  simp [hiByte, BitVec.extractLsb'_toNat, Nat.shiftRight_eq_div_pow]
  omega

theorem loByte_toNat (v : Word) : (loByte v).toNat = v.toNat % 256 := by
  simp [loByte, BitVec.extractLsb'_toNat]

theorem pairUp_hiByte_loByte (v : Word) : pairUp (hiByte v) (loByte v) = v := by
  apply BitVec.eq_of_toNat_eq
  rw [pairUp_toNat, hiByte_toNat, loByte_toNat]
  omega

theorem hiByte_pairUp (hi lo : Byte) : hiByte (pairUp hi lo) = hi := by
  apply BitVec.eq_of_toNat_eq
  rw [hiByte_toNat, pairUp_toNat]
  have := lo.isLt
  omega

theorem loByte_pairUp (hi lo : Byte) : loByte (pairUp hi lo) = lo := by
  apply BitVec.eq_of_toNat_eq
  rw [loByte_toNat, pairUp_toNat]
  have := lo.isLt
  omega

theorem leWord_loByte_hiByte (v : Word) : leWord (loByte v) (hiByte v) = v := pairUp_hiByte_loByte v

/-- Masking the low nibble drops it. -/
theorem and_F0_toNat (v : Byte) : (v &&& 0xF0).toNat = 16 * (v.toNat / 16) := by
  revert v
  decide

theorem GbBlock.getPair_setPair (g : GbBlock) (p : Pair) (v : Word) : (g.setPair p v).getPair p = v := by
  cases p <;> first | exact pairUp_hiByte_loByte v | rfl

/-- `AF` loses its low nibble; every other stack pair keeps the value. -/
theorem GbBlock.getStackPair_setStackPair (g : GbBlock) (p : StackPair) (v : Word) :
    (g.setStackPair p v).getStackPair p = if p = .af then v &&& 0xFFF0 else v := by
  cases p
  · exact pairUp_hiByte_loByte v
  · exact pairUp_hiByte_loByte v
  · exact pairUp_hiByte_loByte v
  · simp only [GbBlock.setStackPair, GbBlock.getStackPair, GbBlock.setAf, GbBlock.writeF, GbBlock.af,
      GbBlock.readF, if_true]
    have h : pairUp (hiByte v) (loByte v &&& 0xF0 &&& 0xF0) = pairUp (hiByte v) (loByte v) &&& 0xFFF0 := by
      generalize hiByte v = x
      generalize loByte v = y
      apply BitVec.eq_of_getLsbD_eq
      intro k hk
      have h0 : ∀ k, k < 8 → BitVec.getLsbD (0xF0 : Byte) k = BitVec.getLsbD (0xFFF0 : Word) k := by decide
      have h1 : ∀ k, k < 16 → ¬ k < 8 → BitVec.getLsbD (0xFFF0 : Word) k = true := by decide
      have happ : ∀ z : Byte, (pairUp x z).getLsbD k = if k < 8 then z.getLsbD k else x.getLsbD (k - 8) :=
        fun z => BitVec.getLsbD_append
      rw [BitVec.getLsbD_and, happ, happ, BitVec.getLsbD_and, BitVec.getLsbD_and]
      by_cases h8 : k < 8
      · rw [if_pos h8, if_pos h8, ← h0 k h8, Bool.and_assoc, Bool.and_self]
      · rw [if_neg h8, if_neg h8, h1 k hk h8, Bool.and_true]
    rw [h, pairUp_hiByte_loByte]

theorem GbBlock.frame_setPair (g : GbBlock) (p : Pair) (v : Word) :
    GbFrame (fieldsOfPair p) g (g.setPair p v) := by
  intro k hk
  cases p <;> cases k <;> first | rfl | exact fun _ => rfl | (simp [fieldsOfPair] at hk)

theorem GbBlock.frame_setStackPair (g : GbBlock) (p : StackPair) (v : Word) :
    GbFrame (fieldsOfStackPair p) g (g.setStackPair p v) := by
  intro k hk
  cases p <;> cases k <;> first | rfl | exact fun _ => rfl | (simp [fieldsOfStackPair] at hk)

theorem GbBlock.frame_setR (g : GbBlock) (r : Reg8) (v : Byte) :
    GbFrame [fieldOfReg r] g (g.setR r v) := by
  intro k hk
  cases r <;> cases k <;> first | rfl | exact fun _ => rfl | (simp [fieldOfReg] at hk)

/-- A register form reads back what was written; the memory form stores at the old HL. -/
theorem GbBlock.getR_setR (g : GbBlock) (r : Reg8) (v : Byte) : (g.setR r v).getR r = v := by
  cases r <;> first | rfl | exact Memory.read_write_same ..

theorem GbBlock.setR_mem (g : GbBlock) (r : Reg8) (v : Byte) (a : Nat) :
    (g.setR r v).mem.read a = if r = .hlMem ∧ a = g.hl.toNat then v else g.mem.read a := by
  cases r <;> first | rfl | skip
  simp [GbBlock.setR, GbBlock.memWrite, Memory.read_write]

/-! ## The GB stack -/

theorem GbBlock.push16_sp_eq (g : GbBlock) (v : Word) : (g.push16 v).sp = g.sp - 2 := by
  simp only [GbBlock.push16, GbBlock.memWrite]
  bv_omega

theorem GbBlock.push16_read (g : GbBlock) (v : Word) (a : Nat) :
    (g.push16 v).mem.read a =
      if a = (g.sp - 2).toNat then loByte v
      else if a = (g.sp - 1).toNat then hiByte v else g.mem.read a := by
  have : g.sp - 1 - 1 = g.sp - 2 := by bv_omega
  simp only [GbBlock.push16, GbBlock.memWrite, Memory.read_write, this]

theorem GbBlock.frame_push16 (g : GbBlock) (v : Word) : GbFrame [.mem, .sp] g (g.push16 v) := by
  intro k hk
  cases k <;> first | rfl | (simp at hk)

end Sys2Proof.Machine
end

