-- ==== Sys2Proof/Laws/Flags.lean ====
section
/-! SUPPORT. What the flag computations give, as numbers. -/

namespace Sys2Proof.Machine

theorem u8_toNat (n : Nat) : (u8 n).toNat = n % 256 := by
  simp [u8]

theorem u16_toNat (n : Nat) : (u16 n).toNat = n % 65536 := by
  simp [u16]

theorem u8_toInt (n : Int) : ((u8 n).toNat : Int) = n % 256 := by
  simp [u8, BitVec.toNat_ofInt]
  omega

/-- A packed flag byte says its four flags, and the mask of `F` keeps it. -/
theorem packFlags_are (z n h c : Bool) : FlagsAre (packFlags z n h c &&& 0xF0) z n h c := by
  revert z n h c
  unfold FlagsAre
  decide

theorem c8Sum_toNat (a b : Byte) : (c8Sum a b).1.toNat = (a.toNat + b.toNat) % 256 := by
  have := u8_toNat (a.toNat + b.toNat)
  simpa [c8Sum] using this

theorem c8Difference_toInt (a b : Byte) :
    ((c8Difference a b).1.toNat : Int) = ((a.toNat : Int) - b.toNat) % 256 := u8_toInt _

theorem aluAdd_toNat (a v : Byte) (cin : Bool) :
    (aluAdd a v cin).1.toNat = (a.toNat + v.toNat + cin.toNat) % 256 := by
  have := u8_toNat (a.toNat + v.toNat + cin.toNat)
  simpa [aluAdd] using this

theorem aluSub_toInt (a v : Byte) (cin : Bool) :
    ((aluSub a v cin).1.toNat : Int) = ((a.toNat : Int) - v.toNat - cin.toNat) % 256 := u8_toInt _

theorem GbBlock.frame_setAcc (g : GbBlock) (r : Byte × Byte) : GbFrame [.a, .f] g (g.setAcc r) := by
  intro k hk
  cases k <;> first | rfl | exact fun _ => rfl | (simp at hk)

theorem GbBlock.frame_writeF (g : GbBlock) (v : Byte) : GbFrame [.f] g (g.writeF v) := by
  intro k hk
  cases k <;> first | rfl | exact fun _ => rfl | (simp at hk)

theorem GbBlock.frame_addToHl (g : GbBlock) (v : Word) : GbFrame [.h, .l, .f] g (g.addToHl v) := by
  intro k hk
  cases k <;> first | rfl | exact fun _ => rfl | (simp at hk)

end Sys2Proof.Machine
end

