-- ==== Sys2Proof/Laws/Run.lean ====
section
/-! SUPPORT. What running a handler on the active block can do, said once: when it completes, and what holds
when it answers a next state. -/

namespace Sys2Proof.Machine

theorem State.done_putC8 {s : State} {b : C8Block} (b' : C8Block) (r : Reply)
    (hb : s.chip8.active = some b) : C8Done s ((s.putC8 b').answer r) b' r :=
  ⟨Engine.active_putActive b' hb, Engine.sameButActive_putActive .., rfl, rfl, rfl, rfl, rfl, rfl, rfl⟩

theorem State.done_putGb {s : State} {g : GbBlock} (g' : GbBlock) (r : Reply)
    (hg : s.gb.active = some g) : GbDone s ((s.putGb g').answer r) g' r :=
  ⟨Engine.active_putActive g' hg, Engine.sameButActive_putActive .., rfl, rfl, rfl, rfl, rfl, rfl, rfl⟩

/-- A CHIP-8 handler that ends normally completes. -/
theorem State.runC8_ok {s : State} {b b' : C8Block} {f : C8Block → Except Raise C8Block}
    (h : C8Ready s b) (hf : f b = .ok b') : C8Completes s (s.runC8 f) b' 1 := by
  refine ⟨_, ?_, State.done_putC8 b' (.cycles 1) h.2⟩
  simp [State.runC8, h.1, h.2, hf, c8Cycles]

/-- A CHIP-8 handler that raises halts the session and changes nothing else. -/
theorem State.runC8_raise {s : State} {b : C8Block} {r : Raise} {f : C8Block → Except Raise C8Block}
    (h : C8Ready s b) (hf : f b = .error r) :
    C8Halts s (s.runC8 f) b (raiseCause r) (raiseInfo r) := by
  refine ⟨_, ?_, State.done_putC8 _ (.cycles 0) h.2⟩
  simp [State.runC8, h.1, h.2, hf, C8Block.halt, Status.halt, haltedStatus]

/-- The same of an outcome that is a handler's run, such as an instruction's `exec`. -/
theorem C8Completes.of_ok {s : State} {b b' : C8Block} {f : C8Block → Except Raise C8Block}
    {o : Host.Outcome State Fault Refusal} (h : C8Ready s b) (ho : o = s.runC8 f) (hf : f b = .ok b') :
    C8Completes s o b' 1 := ho ▸ State.runC8_ok h hf

theorem C8Halts.of_raise {s : State} {b : C8Block} {r : Raise} {f : C8Block → Except Raise C8Block}
    {o : Host.Outcome State Fault Refusal} (h : C8Ready s b) (ho : o = s.runC8 f) (hf : f b = .error r) :
    C8Halts s o b (raiseCause r) (raiseInfo r) := ho ▸ State.runC8_raise h hf

/-- A CHIP-8 handler answers a next state only by ending normally or by raising. -/
theorem State.runC8_next {s t : State} {f : C8Block → Except Raise C8Block} (h : s.runC8 f = .next t) :
    ∃ b, C8Ready s b ∧
      ((∃ b', f b = .ok b' ∧ t = (s.putC8 b').answer (.cycles 1)) ∨
        ∃ r, f b = .error r ∧
          t = (s.putC8 (b.halt (raiseCause r) (raiseInfo r))).answer (.cycles 0)) := by
  unfold State.runC8 at h
  split at h
  · cases h
  · rename_i ha
    split at h
    · cases h
    · rename_i b hb
      refine ⟨b, ⟨ha, hb⟩, ?_⟩
      split at h <;> rename_i r hr <;> cases h
      · exact .inl ⟨r, hr, rfl⟩
      · exact .inr ⟨r, hr, rfl⟩

/-- A GB handler completes with the block and the count it gives. -/
theorem State.runGb_done {s : State} {g : GbBlock} (f : GbBlock → GbBlock × Nat) (h : GbReady s g) :
    ∃ t, s.runGb f = .next t ∧ GbDone s t (f g).1 (.cycles (f g).2) := by
  refine ⟨_, ?_, State.done_putGb (f g).1 (.cycles (f g).2) h.2⟩
  simp [State.runGb, h.1, h.2]

theorem State.runGb_completes {s : State} {g : GbBlock} (f : GbBlock → GbBlock × Nat) (h : GbReady s g)
    (hn : 0 < (f g).2) : GbCompletes s (s.runGb f) (f g).1 := by
  obtain ⟨t, ht, hd⟩ := State.runGb_done f h
  exact ⟨t, _, ht, hn, hd⟩

/-- The same of an outcome that is a handler's run, such as an instruction's `exec`. -/
theorem GbCompletes.of_run {s : State} {g : GbBlock} {f : GbBlock → GbBlock × Nat}
    {o : Host.Outcome State Fault Refusal} (h : GbReady s g) (ho : o = s.runGb f) (hn : 0 < (f g).2) :
    GbCompletes s o (f g).1 := ho ▸ State.runGb_completes f h hn

/-- A GB handler answers a next state only from a ready machine. -/
theorem State.runGb_next {s t : State} {f : GbBlock → GbBlock × Nat} (h : s.runGb f = .next t) :
    ∃ g, GbReady s g ∧ t = (s.putGb (f g).1).answer (.cycles (f g).2) := by
  unfold State.runGb at h
  split at h
  · cases h
  · rename_i ha
    split at h
    · cases h
    · rename_i g hg
      cases h
      exact ⟨g, ⟨ha, hg⟩, rfl⟩

/-! ## The guard of the CHIP-8 memory instructions -/

theorem c8Guard_ok {base : Word} {n : Nat} (b : C8Block) (h : n = 0 ∨ base.toNat + n ≤ 4096) :
    c8Guard base n b = .ok b := by
  have : c8InRange base n = true := by
    rcases h with h | h <;> simp [c8InRange, Config.c8MemSize, h]
  simp [c8Guard, this]

theorem c8Guard_raise {base : Word} {n : Nat} (b : C8Block) (hn : n ≠ 0) (h : 4096 < base.toNat + n) :
    c8Guard base n b = .error (.busFault (BitVec.ofNat 16 (max base.toNat 4096))) := by
  have : c8InRange base n = false := by
    have : ¬ base.toNat + n ≤ 4096 := by omega
    simp [c8InRange, Config.c8MemSize, hn, this]
  have hm : c8FaultAddress base = BitVec.ofNat 16 (max base.toNat 4096) := by
    apply BitVec.eq_of_toNat_eq
    have := base.isLt
    unfold c8FaultAddress
    by_cases hlt : base < 0x1000
    · have : base.toNat < 4096 := by simpa [BitVec.lt_def] using hlt
      simp only [hlt, if_true, BitVec.toNat_ofNat]
      change 4096 = _
      omega
    · have : ¬ base.toNat < 4096 := by simpa [BitVec.lt_def] using hlt
      simp only [hlt, if_false, BitVec.toNat_ofNat]
      omega
  simp [c8Guard, this, hm]

/-- The guard passes a block unchanged or raises. -/
theorem c8Guard_cases (base : Word) (n : Nat) (b : C8Block) :
    (c8Guard base n b = .ok b ∧ (n = 0 ∨ base.toNat + n ≤ 4096)) ∨
      ∃ r, c8Guard base n b = .error r := by
  by_cases h : n = 0 ∨ base.toNat + n ≤ 4096
  · exact .inl ⟨c8Guard_ok b h, h⟩
  · simp only [not_or, not_le] at h
    exact .inr ⟨_, c8Guard_raise b h.1 h.2⟩

end Sys2Proof.Machine
end

