-- ==== Sys2Proof/Laws/Io.lean ====
section
/-! SUPPORT. What drawing a sprite and moving a run of registers do (43_chip8_io_mem R181, R190, R191). -/

namespace Sys2Proof.Machine

/-! ## Display -/

theorem Display.cell_flip (d : Display) (x y px py : Nat) :
    Display.cell (Display.flip d x y) px py =
      xor (Display.cell d px py) (decide (px % 64 = x % 64 ∧ py % 32 = y % 32)) := by
  simp only [Display.cell, Display.flip, Vector.getElem_set]
  by_cases hy : y % 32 = py % 32
  · have hb : (1#64 <<< (x % 64)).getLsbD (px % 64) = decide (px % 64 = x % 64) := by
      rw [BitVec.getLsbD_shiftLeft, BitVec.getLsbD_one]
      have := Nat.mod_lt px (show 64 > 0 by decide)
      by_cases h : px % 64 = x % 64
      · simp [h, Nat.mod_lt]
      · by_cases hlt : px % 64 < x % 64
        · simp [h, hlt]
        · have : ¬ px % 64 - x % 64 = 0 := by omega
          simp [h, this]
    simp only [hy, if_true, BitVec.getLsbD_xor, hb, and_true]
  · have hy' : ¬ py % 32 = y % 32 := fun h => hy h.symm
    simp [hy, hy']

/-- The bit of a sprite row that lands on column px when the row starts at column x. -/
def rowBit (bits : Byte) (x px : Nat) : Bool :=
  decide ((px + 64 - x % 64) % 64 < 8) && bits.getLsbD (7 - (px + 64 - x % 64) % 64)

/-- The part of `drawByte` that draws the first k pixels of the row. -/
theorem drawByte_prefix (bits : Byte) (x y : Nat) (d : Display) (hit : Bool) (k : Nat) (hk : k ≤ 8) :
    let r := (List.range k).foldl
      (fun acc col =>
        if bits.getLsbD (7 - col) then
          (Display.flip acc.1 (x + col) y, acc.2 || Display.cell acc.1 (x + col) y)
        else acc) (d, hit)
    (∀ px py, Display.cell r.1 px py =
      xor (Display.cell d px py)
        (decide ((px + 64 - x % 64) % 64 < k) && bits.getLsbD (7 - (px + 64 - x % 64) % 64) &&
          decide (py % 32 = y % 32))) ∧
    (r.2 = true ↔ hit = true ∨ ∃ col, col < k ∧ bits.getLsbD (7 - col) = true ∧
      Display.cell d (x + col) y = true) := by
  induction k with
  | zero => simp
  | succ k ih =>
    obtain ⟨ih1, ih2⟩ := ih (by omega)
    simp only [List.range_succ, List.foldl_append, List.foldl_cons, List.foldl_nil]
    revert ih1 ih2
    generalize (List.range k).foldl _ _ = r
    intro ih1 ih2
    have hcol : ∀ px, (px % 64 = (x + k) % 64) ↔ (px + 64 - x % 64) % 64 = k := by
      intro px
      omega
    have hold : Display.cell r.1 (x + k) y = Display.cell d (x + k) y := by
      rw [ih1]
      have : ¬ (x + k + 64 - x % 64) % 64 < k := by omega
      simp [this]
    by_cases hb : bits.getLsbD (7 - k) = true
    · rw [if_pos hb]
      refine ⟨fun px py => ?_, ?_⟩
      · simp only [Display.cell_flip, ih1, hcol, Bool.xor_assoc]
        congr 1
        by_cases h1 : (px + 64 - x % 64) % 64 = k
        · simp [h1, hb]
        · by_cases h2 : (px + 64 - x % 64) % 64 < k
          · have : (px + 64 - x % 64) % 64 < k + 1 := by omega
            simp [h1, h2, this]
          · have : ¬ (px + 64 - x % 64) % 64 < k + 1 := by omega
            simp [h1, h2, this]
      · simp only [Bool.or_eq_true, ih2, hold]
        constructor
        · rintro ((h | ⟨c, hc, h⟩) | h)
          · exact .inl h
          · exact .inr ⟨c, by omega, h⟩
          · exact .inr ⟨k, by omega, hb, h⟩
        · rintro (h | ⟨c, hc, h1, h2⟩)
          · exact .inl (.inl h)
          · rcases Nat.lt_succ_iff_lt_or_eq.1 hc with hc | rfl
            · exact .inl (.inr ⟨c, hc, h1, h2⟩)
            · exact .inr h2
    · rw [if_neg hb]
      refine ⟨fun px py => ?_, ?_⟩
      · rw [ih1]
        congr 1
        by_cases h1 : (px + 64 - x % 64) % 64 = k
        · simp [h1, hb]
        · have : (px + 64 - x % 64) % 64 < k + 1 ↔ (px + 64 - x % 64) % 64 < k := by omega
          simp [this]
      · rw [ih2]
        constructor
        · rintro (h | ⟨c, hc, h⟩)
          · exact .inl h
          · exact .inr ⟨c, by omega, h⟩
        · rintro (h | ⟨c, hc, h1, h2⟩)
          · exact .inl h
          · rcases Nat.lt_succ_iff_lt_or_eq.1 hc with hc | rfl
            · exact .inr ⟨c, hc, h1, h2⟩
            · exact absurd h1 hb

/-- One row inverts exactly the pixels under its set bits, and the flag records one that was set. -/
theorem drawByte_spec (bits : Byte) (x y : Nat) (d : Display) (hit : Bool) :
    (∀ px py, Display.cell (drawByte bits x y (d, hit)).1 px py =
      xor (Display.cell d px py) (rowBit bits x px && decide (py % 32 = y % 32))) ∧
    ((drawByte bits x y (d, hit)).2 = true ↔ hit = true ∨ ∃ col, col < 8 ∧
      bits.getLsbD (7 - col) = true ∧ Display.cell d (x + col) y = true) :=
  drawByte_prefix bits x y d hit 8 (by decide)

/-- The bit of an n-row sprite that lands on pixel (px, py) when the sprite stands at (x, y). -/
def spriteBit (m : Memory) (base n x y px py : Nat) : Bool :=
  decide ((py + 32 - y % 32) % 32 < n) && rowBit (m.read (base + (py + 32 - y % 32) % 32)) x px

/-- A sprite inverts exactly the pixels under its set bits, and the flag says that one of them was set. -/
theorem drawSprite_spec (m : Memory) (base n x y : Nat) (d : Display) (hn : n ≤ 32) :
    (∀ px py, Display.cell (drawSprite m base n x y d).1 px py =
      xor (Display.cell d px py) (spriteBit m base n x y px py)) ∧
    ((drawSprite m base n x y d).2 = true ↔ ∃ row col, row < n ∧ col < 8 ∧
      (m.read (base + row)).getLsbD (7 - col) = true ∧ Display.cell d (x + col) (y + row) = true) := by
  unfold drawSprite
  induction n with
  | zero => simp [spriteBit]
  | succ n ih =>
    obtain ⟨ih1, ih2⟩ := ih (by omega)
    simp only [List.range_succ, List.foldl_append, List.foldl_cons, List.foldl_nil]
    revert ih1 ih2
    generalize (List.range n).foldl _ _ = r
    intro ih1 ih2
    obtain ⟨h1, h2⟩ := drawByte_spec (m.read (base + n)) x (y + n) r.1 r.2
    have hrow : ∀ py, (py % 32 = (y + n) % 32) ↔ (py + 32 - y % 32) % 32 = n := by
      intro py
      omega
    refine ⟨fun px py => ?_, ?_⟩
    · rw [h1, ih1, Bool.xor_assoc]
      congr 1
      simp only [spriteBit, hrow]
      by_cases he : (py + 32 - y % 32) % 32 = n
      · simp [he]
      · by_cases hlt : (py + 32 - y % 32) % 32 < n
        · have : (py + 32 - y % 32) % 32 < n + 1 := by omega
          simp [he, hlt, this]
        · have : ¬ (py + 32 - y % 32) % 32 < n + 1 := by omega
          simp [he, hlt, this]
    · rw [h2, ih2]
      have hold : ∀ col, Display.cell r.1 (x + col) (y + n) = Display.cell d (x + col) (y + n) := by
        intro col
        rw [ih1]
        have : decide ((y + n + 32 - y % 32) % 32 < n) = false := by simp; omega
        rw [spriteBit, this, Bool.false_and, Bool.xor_false]
      simp only [hold]
      constructor
      · rintro (⟨row, col, hr, h⟩ | ⟨col, hc, h⟩)
        · exact ⟨row, col, by omega, h⟩
        · exact ⟨n, col, by omega, hc, h⟩
      · rintro ⟨row, col, hr, hc, h⟩
        rcases Nat.lt_succ_iff_lt_or_eq.1 hr with hr | rfl
        · exact .inl ⟨row, col, hr, hc, h⟩
        · exact .inr ⟨col, hc, h⟩

/-! ## Runs of registers -/

theorem storeRegs_read (b : C8Block) (n a : Nat) :
    (storeRegs b n).mem.read a =
      if b.i.toNat ≤ a ∧ a < b.i.toNat + n then b.getV (BitVec.ofNat 4 (a - b.i.toNat))
      else b.mem.read a := by
  simp only [storeRegs]
  induction n with
  | zero =>
    simp
  | succ n ih =>
    rw [List.range_succ, List.foldl_append, List.foldl_cons, List.foldl_nil, Memory.read_write, ih]
    by_cases h : a = b.i.toNat + n
    · have h1 : a - b.i.toNat = n := by omega
      have h2 : b.i.toNat ≤ a ∧ a < b.i.toNat + (n + 1) := by omega
      rw [if_pos h, if_pos h2, h1]
    · have : (b.i.toNat ≤ a ∧ a < b.i.toNat + (n + 1)) ↔ (b.i.toNat ≤ a ∧ a < b.i.toNat + n) := by omega
      rw [if_neg h]
      simp only [this]

theorem storeRegs_wf {size : Nat} (b : C8Block) (n : Nat) (h : b.mem.wf size)
    (hn : b.i.toNat + n ≤ size) : (storeRegs b n).mem.wf size := by
  simp only [storeRegs]
  induction n with
  | zero => exact h
  | succ n ih =>
    rw [List.range_succ, List.foldl_append, List.foldl_cons, List.foldl_nil]
    exact Memory.wf_write _ (ih (by omega)) (by omega)

theorem frame_storeRegs (b : C8Block) (n : Nat) : C8Frame [.mem] b (storeRegs b n) := by
  intro k hk
  cases k <;> first | rfl | (simp at hk)

theorem loadRegs_getV (b : C8Block) (n : Nat) (hn : n ≤ 16) (j : BitVec 4) :
    (loadRegs b n).getV j =
      if j.toNat < n then b.mem.read (b.i.toNat + j.toNat) else b.getV j := by
  simp only [loadRegs]
  induction n with
  | zero => simp
  | succ n ih =>
    rw [List.range_succ, List.foldl_append, List.foldl_cons, List.foldl_nil, C8Block.getV_setV,
      ih (by omega)]
    have hj : j = BitVec.ofNat 4 n ↔ j.toNat = n := by
      rw [← BitVec.toNat_inj, BitVec.toNat_ofNat, Nat.mod_eq_of_lt (by omega)]
    by_cases h : j.toNat = n
    · rw [if_pos (hj.2 h), if_pos (by omega), h]
    · have : j.toNat < n + 1 ↔ j.toNat < n := by omega
      rw [if_neg (fun he => h (hj.1 he))]
      simp only [this]

theorem frame_loadRegs (b : C8Block) (n : Nat) : C8Frame [.v] b (loadRegs b n) := by
  simp only [loadRegs]
  induction n with
  | zero => exact C8Frame.refl _ b
  | succ n ih =>
    rw [List.range_succ, List.foldl_append, List.foldl_cons, List.foldl_nil]
    intro k hk
    have h := ih k hk
    cases k <;> first | exact h | (simp at hk)

end Sys2Proof.Machine
end

