-- ==== Sys2Proof/Laws/PerInstr.lean ====
section
/-! SUPPORT. Statements made instruction by instruction. -/

namespace Sys2Proof.Laws

/-- The length in bytes of the row an instruction belongs to (`length_bytes` of the opcode tables,
30_encoding R80, R90, R91, R94). -/
def EncodedLength.tableLength (i : Instr) : Nat :=
  match i with
  | .c8Cls => 2
  | .c8Ret => 2
  | .c8Jp _ => 2
  | .c8Call _ => 2
  | .c8SeByte _ _ => 2
  | .c8SneByte _ _ => 2
  | .c8SeReg _ _ => 2
  | .c8LdByte _ _ => 2
  | .c8AddByte _ _ => 2
  | .c8LdReg _ _ => 2
  | .c8Or _ _ => 2
  | .c8And _ _ => 2
  | .c8Xor _ _ => 2
  | .c8Add _ _ => 2
  | .c8Sub _ _ => 2
  | .c8Shr _ _ => 2
  | .c8Subn _ _ => 2
  | .c8Shl _ _ => 2
  | .c8SneReg _ _ => 2
  | .c8LdI _ => 2
  | .c8JpV0 _ => 2
  | .c8Rnd _ _ => 2
  | .c8Drw _ _ _ => 2
  | .c8Skp _ => 2
  | .c8Sknp _ => 2
  | .c8LdVxDt _ => 2
  | .c8LdVxK _ => 2
  | .c8LdDtVx _ => 2
  | .c8LdStVx _ => 2
  | .c8AddI _ => 2
  | .c8LdF _ => 2
  | .c8LdB _ => 2
  | .c8StoreRegs _ => 2
  | .c8LoadRegs _ => 2
  | .gbStop => 1
  | .gbHalt => 1
  | .gbDi => 1
  | .gbEi => 1
  | .gbPrefixCb _ => 2
  | .gbJp _ => 3
  | .gbJr _ => 2
  | .gbCall _ => 3
  | .gbRet => 1
  | .gbLdBcA => 1
  | .gbLdDeA => 1
  | .gbLdiHlA => 1
  | .gbLddHlA => 1
  | .gbLdABc => 1
  | .gbLdADe => 1
  | .gbLdiAHl => 1
  | .gbLddAHl => 1
  | .gbAddN _ => 2
  | .gbAdcN _ => 2
  | .gbSubN _ => 2
  | .gbSbcN _ => 2
  | .gbAndN _ => 2
  | .gbXorN _ => 2
  | .gbOrN _ => 2
  | .gbCpN _ => 2
  | .gbJpCc _ _ => 3
  | .gbJrCc _ _ => 2
  | .gbLdPairNn _ _ => 3
  | .gbAddHl _ => 1
  | .gbPush _ => 1
  | .gbPop _ => 1
  | .gbLdRN _ _ => 2
  | .gbAddR _ => 1
  | .gbAdcR _ => 1
  | .gbSubR _ => 1
  | .gbSbcR _ => 1
  | .gbAndR _ => 1
  | .gbXorR _ => 1
  | .gbOrR _ => 1
  | .gbCpR _ => 1
  | .gbLdRR _ _ => 1
  | .gbBit _ _ => 2
  | .gbRes _ _ => 2
  | .gbSet _ _ => 2

/-- The encoding of an instruction has the length its row gives. -/
def EncodedLength.Statement (i : Instr) : Prop := (encode i).length = EncodedLength.tableLength i

open EncodedLength

theorem EncodedLength.c8Cls : Statement .c8Cls := rfl
theorem EncodedLength.c8Ret : Statement .c8Ret := rfl
theorem EncodedLength.c8Jp (nnn : BitVec 12) : Statement (.c8Jp nnn) := rfl
theorem EncodedLength.c8Call (nnn : BitVec 12) : Statement (.c8Call nnn) := rfl
theorem EncodedLength.c8SeByte (x : BitVec 4) (kk : Byte) : Statement (.c8SeByte x kk) := rfl
theorem EncodedLength.c8SneByte (x : BitVec 4) (kk : Byte) : Statement (.c8SneByte x kk) := rfl
theorem EncodedLength.c8SeReg (x : BitVec 4) (y : BitVec 4) : Statement (.c8SeReg x y) := rfl
theorem EncodedLength.c8LdByte (x : BitVec 4) (kk : Byte) : Statement (.c8LdByte x kk) := rfl
theorem EncodedLength.c8AddByte (x : BitVec 4) (kk : Byte) : Statement (.c8AddByte x kk) := rfl
theorem EncodedLength.c8LdReg (x : BitVec 4) (y : BitVec 4) : Statement (.c8LdReg x y) := rfl
theorem EncodedLength.c8Or (x : BitVec 4) (y : BitVec 4) : Statement (.c8Or x y) := rfl
theorem EncodedLength.c8And (x : BitVec 4) (y : BitVec 4) : Statement (.c8And x y) := rfl
theorem EncodedLength.c8Xor (x : BitVec 4) (y : BitVec 4) : Statement (.c8Xor x y) := rfl
theorem EncodedLength.c8Add (x : BitVec 4) (y : BitVec 4) : Statement (.c8Add x y) := rfl
theorem EncodedLength.c8Sub (x : BitVec 4) (y : BitVec 4) : Statement (.c8Sub x y) := rfl
theorem EncodedLength.c8Shr (x : BitVec 4) (y : BitVec 4) : Statement (.c8Shr x y) := rfl
theorem EncodedLength.c8Subn (x : BitVec 4) (y : BitVec 4) : Statement (.c8Subn x y) := rfl
theorem EncodedLength.c8Shl (x : BitVec 4) (y : BitVec 4) : Statement (.c8Shl x y) := rfl
theorem EncodedLength.c8SneReg (x : BitVec 4) (y : BitVec 4) : Statement (.c8SneReg x y) := rfl
theorem EncodedLength.c8LdI (nnn : BitVec 12) : Statement (.c8LdI nnn) := rfl
theorem EncodedLength.c8JpV0 (nnn : BitVec 12) : Statement (.c8JpV0 nnn) := rfl
theorem EncodedLength.c8Rnd (x : BitVec 4) (kk : Byte) : Statement (.c8Rnd x kk) := rfl
theorem EncodedLength.c8Drw (x : BitVec 4) (y : BitVec 4) (n : BitVec 4) : Statement (.c8Drw x y n) := rfl
theorem EncodedLength.c8Skp (x : BitVec 4) : Statement (.c8Skp x) := rfl
theorem EncodedLength.c8Sknp (x : BitVec 4) : Statement (.c8Sknp x) := rfl
theorem EncodedLength.c8LdVxDt (x : BitVec 4) : Statement (.c8LdVxDt x) := rfl
theorem EncodedLength.c8LdVxK (x : BitVec 4) : Statement (.c8LdVxK x) := rfl
theorem EncodedLength.c8LdDtVx (x : BitVec 4) : Statement (.c8LdDtVx x) := rfl
theorem EncodedLength.c8LdStVx (x : BitVec 4) : Statement (.c8LdStVx x) := rfl
theorem EncodedLength.c8AddI (x : BitVec 4) : Statement (.c8AddI x) := rfl
theorem EncodedLength.c8LdF (x : BitVec 4) : Statement (.c8LdF x) := rfl
theorem EncodedLength.c8LdB (x : BitVec 4) : Statement (.c8LdB x) := rfl
theorem EncodedLength.c8StoreRegs (x : BitVec 4) : Statement (.c8StoreRegs x) := rfl
theorem EncodedLength.c8LoadRegs (x : BitVec 4) : Statement (.c8LoadRegs x) := rfl
theorem EncodedLength.gbStop : Statement .gbStop := rfl
theorem EncodedLength.gbHalt : Statement .gbHalt := rfl
theorem EncodedLength.gbDi : Statement .gbDi := rfl
theorem EncodedLength.gbEi : Statement .gbEi := rfl
theorem EncodedLength.gbPrefixCb (sub : Byte) : Statement (.gbPrefixCb sub) := rfl
theorem EncodedLength.gbJp (nn : Word) : Statement (.gbJp nn) := rfl
theorem EncodedLength.gbJr (e : Byte) : Statement (.gbJr e) := rfl
theorem EncodedLength.gbCall (nn : Word) : Statement (.gbCall nn) := rfl
theorem EncodedLength.gbRet : Statement .gbRet := rfl
theorem EncodedLength.gbLdBcA : Statement .gbLdBcA := rfl
theorem EncodedLength.gbLdDeA : Statement .gbLdDeA := rfl
theorem EncodedLength.gbLdiHlA : Statement .gbLdiHlA := rfl
theorem EncodedLength.gbLddHlA : Statement .gbLddHlA := rfl
theorem EncodedLength.gbLdABc : Statement .gbLdABc := rfl
theorem EncodedLength.gbLdADe : Statement .gbLdADe := rfl
theorem EncodedLength.gbLdiAHl : Statement .gbLdiAHl := rfl
theorem EncodedLength.gbLddAHl : Statement .gbLddAHl := rfl
theorem EncodedLength.gbAddN (n : Byte) : Statement (.gbAddN n) := rfl
theorem EncodedLength.gbAdcN (n : Byte) : Statement (.gbAdcN n) := rfl
theorem EncodedLength.gbSubN (n : Byte) : Statement (.gbSubN n) := rfl
theorem EncodedLength.gbSbcN (n : Byte) : Statement (.gbSbcN n) := rfl
theorem EncodedLength.gbAndN (n : Byte) : Statement (.gbAndN n) := rfl
theorem EncodedLength.gbXorN (n : Byte) : Statement (.gbXorN n) := rfl
theorem EncodedLength.gbOrN (n : Byte) : Statement (.gbOrN n) := rfl
theorem EncodedLength.gbCpN (n : Byte) : Statement (.gbCpN n) := rfl
theorem EncodedLength.gbJpCc (cc : Cond) (nn : Word) : Statement (.gbJpCc cc nn) := rfl
theorem EncodedLength.gbJrCc (cc : Cond) (e : Byte) : Statement (.gbJrCc cc e) := rfl
theorem EncodedLength.gbLdPairNn (pp : Pair) (nn : Word) : Statement (.gbLdPairNn pp nn) := rfl
theorem EncodedLength.gbAddHl (pp : Pair) : Statement (.gbAddHl pp) := rfl
theorem EncodedLength.gbPush (pp : StackPair) : Statement (.gbPush pp) := rfl
theorem EncodedLength.gbPop (pp : StackPair) : Statement (.gbPop pp) := rfl
theorem EncodedLength.gbLdRN (dst : Reg8) (n : Byte) : Statement (.gbLdRN dst n) := rfl
theorem EncodedLength.gbAddR (src : Reg8) : Statement (.gbAddR src) := rfl
theorem EncodedLength.gbAdcR (src : Reg8) : Statement (.gbAdcR src) := rfl
theorem EncodedLength.gbSubR (src : Reg8) : Statement (.gbSubR src) := rfl
theorem EncodedLength.gbSbcR (src : Reg8) : Statement (.gbSbcR src) := rfl
theorem EncodedLength.gbAndR (src : Reg8) : Statement (.gbAndR src) := rfl
theorem EncodedLength.gbXorR (src : Reg8) : Statement (.gbXorR src) := rfl
theorem EncodedLength.gbOrR (src : Reg8) : Statement (.gbOrR src) := rfl
theorem EncodedLength.gbCpR (src : Reg8) : Statement (.gbCpR src) := rfl
theorem EncodedLength.gbLdRR (dst : Reg8) (src : Reg8) : Statement (.gbLdRR dst src) := rfl
theorem EncodedLength.gbBit (b : BitVec 3) (src : Reg8) : Statement (.gbBit b src) := rfl
theorem EncodedLength.gbRes (b : BitVec 3) (src : Reg8) : Statement (.gbRes b src) := rfl
theorem EncodedLength.gbSet (b : BitVec 3) (src : Reg8) : Statement (.gbSet b src) := rfl

end Sys2Proof.Laws
end

