-- ==== Sys2Proof/Laws/Step.lean ====
section
/-! SUPPORT. What a Tick and a step can do, said once. -/

namespace Sys2Proof.Machine

theorem step_eq (s : State) : step s = perform (nextOp s.inbox).1 s.taken := rfl

theorem step_tick {s : State} (h : AboutToTick s) : step s = tick s.taken := by
  rw [step_eq, show (nextOp s.inbox).1 = .tickEmulation from h]
  rfl

theorem c8Ready_taken {s : State} {b : C8Block} (h : C8Ready s b) : C8Ready s.taken b := h

theorem gbReady_taken {s : State} {g : GbBlock} (h : GbReady s g) : GbReady s.taken g := h

/-- A CHIP-8 Tick that answers a next state found a halted block, faulted on the instruction read, found no
entry, or ran the instruction that the opcode decodes to. -/
theorem tickC8_next {s t : State} (h : tickC8 s = .next t) :
    ∃ b, s.chip8.active = some b ∧
      ((b.status.run = .halted ∧ t = s.answer (.cycles 0)) ∨
        (b.status.run = .running ∧ 0xFFE < b.pc.toNat ∧ t = (s.putC8 b.readFault).answer (.cycles 0)) ∨
        (b.status.run = .running ∧ b.pc.toNat ≤ 0xFFE ∧
          (s.chip8.tableBuilt = false ∨ fetch c8Table b.opcode = none) ∧
          t = (s.putC8 (b.noEntry b.opcode)).answer (.cycles 0)) ∨
        ∃ k, b.status.run = .running ∧ b.pc.toNat ≤ 0xFFE ∧ s.chip8.tableBuilt = true ∧
          fetch c8Table b.opcode = some k ∧
          exec (c8Assemble k b.opcode) (s.putC8 (b.dispatched b.opcode)) = .next t) := by
  unfold tickC8 at h
  split at h
  · cases h
  · rename_i b hb
    refine ⟨b, hb, ?_⟩
    split at h
    · cases h
      exact .inl ⟨by assumption, rfl⟩
    · rename_i hr
      have hr : b.status.run = .running := by
        cases hq : b.status.run
        · rfl
        · exact absurd hq hr
      split at h
      · rename_i hp
        cases h
        exact .inr (.inl ⟨hr, hp, rfl⟩)
      · rename_i hp
        have hp : b.pc.toNat ≤ 0xFFE := Nat.not_lt.1 hp
        cases hbuilt : s.chip8.tableBuilt
        · rw [hbuilt] at h
          simp only [tableNow, decodeC8, fetch] at h
          cases h
          exact .inr (.inr (.inl ⟨hr, hp, .inl rfl, rfl⟩))
        · rw [hbuilt] at h
          simp only [tableNow, decodeC8, if_true] at h
          cases hk : fetch c8Table b.opcode with
          | none =>
            rw [hk] at h
            cases h
            exact .inr (.inr (.inl ⟨hr, hp, .inr rfl, rfl⟩))
          | some k =>
            rw [hk] at h
            exact .inr (.inr (.inr ⟨k, hr, hp, rfl, rfl, h⟩))

/-- A GB Tick that answers a next state found a halted block, found no entry, or ran the instruction that the
bytes at `PC` decode to. -/
theorem tickGb_next {s t : State} (h : tickGb s = .next t) :
    ∃ g, s.gb.active = some g ∧
      ((g.status.run = .halted ∧ t = s.answer (.cycles 0)) ∨
        (g.status.run = .running ∧
          (s.gb.tableBuilt = false ∨ ∃ r, decodeGb gbTable g.fetched = .error r) ∧
          t = (s.putGb (g.noEntry g.opcode)).answer (.cycles 0)) ∨
        ∃ i rest, g.status.run = .running ∧ s.gb.tableBuilt = true ∧
          decodeGb gbTable g.fetched = .ok (i, rest) ∧
          exec i (s.putGb (g.dispatched g.opcode)) = .next t) := by
  unfold tickGb at h
  split at h
  · cases h
  · rename_i g hg
    refine ⟨g, hg, ?_⟩
    split at h
    · cases h
      exact .inl ⟨by assumption, rfl⟩
    · rename_i hr
      have hr : g.status.run = .running := by
        cases hq : g.status.run
        · rfl
        · exact absurd hq hr
      cases hbuilt : s.gb.tableBuilt
      · rw [hbuilt] at h
        simp only [tableNow, decodeGb, GbBlock.fetched, fetch] at h
        cases h
        exact .inr (.inl ⟨hr, .inl rfl, rfl⟩)
      · rw [hbuilt] at h
        simp only [tableNow, if_true] at h
        cases hk : decodeGb gbTable g.fetched with
        | error r =>
          rw [hk] at h
          cases h
          exact .inr (.inl ⟨hr, .inr ⟨r, rfl⟩, rfl⟩)
        | ok p =>
          rw [hk] at h
          exact .inr (.inr ⟨p.1, p.2, hr, rfl, rfl, h⟩)

/-- Every CHIP-8 table entry gives an instruction of that core. -/
theorem archOf_c8Assemble (k : C8Op) (op : Word) : archOf (c8Assemble k op) = .chip8 := by
  cases k <;> rfl

end Sys2Proof.Machine
end

