-- ==== Sys2Proof/Tests/Slice0.lean ====
section
/-! SUPPORT. Tests. Words and expected values are copied from the spec: the encodings of 30_encoding R80 to
R91, the vectors of 95_test_vectors and the examples of the instruction rules, named above each test. The
`witness_` theorems show states and operands that meet the hypotheses of the obligations. -/

namespace Sys2Proof.Tests

open Sys2Proof.Machine

/-! ## Well-formedness -/

theorem test_wf_refuses_ld_hl_hl : (Instr.gbLdRR .hlMem .hlMem).wellFormed = false := by decide
theorem test_wf_accepts_ld_a_hl : (Instr.gbLdRR .a .hlMem).wellFormed = true := by decide
theorem test_wf_refuses_prefix_of_a_row : (Instr.gbPrefixCb 0x40).wellFormed = false := by decide
theorem test_wf_accepts_prefix_of_no_row : (Instr.gbPrefixCb 0x3F).wellFormed = true := by decide

/-! ## Decoding: a word for each constructor -/

theorem test_decode_c8Cls : decode .chip8 [0x00, 0xE0] = .ok (.c8Cls, []) := rfl
theorem test_decode_c8Ret : decode .chip8 [0x00, 0xEE] = .ok (.c8Ret, []) := rfl
theorem test_decode_c8Jp : decode .chip8 [0x12, 0x34] = .ok (.c8Jp 0x234, []) := rfl
theorem test_decode_c8Call : decode .chip8 [0x23, 0x00] = .ok (.c8Call 0x300, []) := rfl
theorem test_decode_c8SeByte : decode .chip8 [0x33, 0x2A] = .ok (.c8SeByte 0x3 0x2A, []) := rfl
theorem test_decode_c8SneByte : decode .chip8 [0x43, 0x2A] = .ok (.c8SneByte 0x3 0x2A, []) := rfl
theorem test_decode_c8SeReg : decode .chip8 [0b01011010, 0b10110000] = .ok (.c8SeReg 0xA 0xB, []) := rfl
theorem test_decode_c8LdByte : decode .chip8 [0b01101010, 0b00010010] = .ok (.c8LdByte 0xA 0x12, []) := rfl
theorem test_decode_c8AddByte : decode .chip8 [0x72, 0x20] = .ok (.c8AddByte 2 0x20, []) := rfl
theorem test_decode_c8LdReg : decode .chip8 [0x80, 0x10] = .ok (.c8LdReg 0 1, []) := rfl
theorem test_decode_c8Or : decode .chip8 [0x80, 0x11] = .ok (.c8Or 0 1, []) := rfl
theorem test_decode_c8And : decode .chip8 [0x80, 0x12] = .ok (.c8And 0 1, []) := rfl
theorem test_decode_c8Xor : decode .chip8 [0x80, 0x13] = .ok (.c8Xor 0 1, []) := rfl
theorem test_decode_c8Add : decode .chip8 [0b10001010, 0b10110100] = .ok (.c8Add 0xA 0xB, []) := rfl
theorem test_decode_c8Sub : decode .chip8 [0x80, 0x15] = .ok (.c8Sub 0 1, []) := rfl
theorem test_decode_c8Shr : decode .chip8 [0x80, 0x16] = .ok (.c8Shr 0 1, []) := rfl
theorem test_decode_c8Subn : decode .chip8 [0x80, 0x17] = .ok (.c8Subn 0 1, []) := rfl
theorem test_decode_c8Shl : decode .chip8 [0x8A, 0xBE] = .ok (.c8Shl 0xA 0xB, []) := rfl
theorem test_decode_c8SneReg : decode .chip8 [0x91, 0x20] = .ok (.c8SneReg 1 2, []) := rfl
theorem test_decode_c8LdI : decode .chip8 [0xA2, 0xF0] = .ok (.c8LdI 0x2F0, []) := rfl
theorem test_decode_c8JpV0 : decode .chip8 [0xB3, 0x00] = .ok (.c8JpV0 0x300, []) := rfl
theorem test_decode_c8Rnd : decode .chip8 [0xC0, 0x0F] = .ok (.c8Rnd 0 0x0F, []) := rfl
theorem test_decode_c8Drw : decode .chip8 [0b11010001, 0b00100011] = .ok (.c8Drw 1 2 3, []) := rfl
theorem test_decode_c8Skp : decode .chip8 [0xE2, 0x9E] = .ok (.c8Skp 2, []) := rfl
theorem test_decode_c8Sknp : decode .chip8 [0xE2, 0xA1] = .ok (.c8Sknp 2, []) := rfl
theorem test_decode_c8LdVxDt : decode .chip8 [0xF1, 0x07] = .ok (.c8LdVxDt 1, []) := rfl
theorem test_decode_c8LdVxK : decode .chip8 [0xF3, 0x0A] = .ok (.c8LdVxK 3, []) := rfl
theorem test_decode_c8LdDtVx : decode .chip8 [0xF0, 0x15] = .ok (.c8LdDtVx 0, []) := rfl
theorem test_decode_c8LdStVx : decode .chip8 [0xF0, 0x18] = .ok (.c8LdStVx 0, []) := rfl
theorem test_decode_c8AddI : decode .chip8 [0xF1, 0x1E] = .ok (.c8AddI 1, []) := rfl
theorem test_decode_c8LdF : decode .chip8 [0xF0, 0x29] = .ok (.c8LdF 0, []) := rfl
theorem test_decode_c8LdB : decode .chip8 [0xF0, 0x33] = .ok (.c8LdB 0, []) := rfl
theorem test_decode_c8StoreRegs : decode .chip8 [0b11110010, 0b01010101] = .ok (.c8StoreRegs 2, []) := rfl
theorem test_decode_c8LoadRegs : decode .chip8 [0xF1, 0x65] = .ok (.c8LoadRegs 1, []) := rfl
theorem test_decode_gbStop : decode .gb [0x10] = .ok (.gbStop, []) := rfl
theorem test_decode_gbHalt : decode .gb [0b01110110] = .ok (.gbHalt, []) := rfl
theorem test_decode_gbDi : decode .gb [0xF3] = .ok (.gbDi, []) := rfl
theorem test_decode_gbEi : decode .gb [0xFB] = .ok (.gbEi, []) := rfl
theorem test_decode_gbPrefixCb : decode .gb [0xCB, 0x37] = .ok (.gbPrefixCb 0x37, []) := rfl
theorem test_decode_gbJp : decode .gb [0xC3, 0x50, 0x01] = .ok (.gbJp 0x0150, []) := rfl
theorem test_decode_gbJr : decode .gb [0x18, 0xFB] = .ok (.gbJr 0xFB, []) := rfl
theorem test_decode_gbCall : decode .gb [0xCD, 0x00, 0x02] = .ok (.gbCall 0x0200, []) := rfl
theorem test_decode_gbRet : decode .gb [0xC9] = .ok (.gbRet, []) := rfl
theorem test_decode_gbLdBcA : decode .gb [0x02] = .ok (.gbLdBcA, []) := rfl
theorem test_decode_gbLdDeA : decode .gb [0x12] = .ok (.gbLdDeA, []) := rfl
theorem test_decode_gbLdiHlA : decode .gb [0x22] = .ok (.gbLdiHlA, []) := rfl
theorem test_decode_gbLddHlA : decode .gb [0x32] = .ok (.gbLddHlA, []) := rfl
theorem test_decode_gbLdABc : decode .gb [0x0A] = .ok (.gbLdABc, []) := rfl
theorem test_decode_gbLdADe : decode .gb [0x1A] = .ok (.gbLdADe, []) := rfl
theorem test_decode_gbLdiAHl : decode .gb [0x2A] = .ok (.gbLdiAHl, []) := rfl
theorem test_decode_gbLddAHl : decode .gb [0x3A] = .ok (.gbLddAHl, []) := rfl
theorem test_decode_gbAddN : decode .gb [0xC6, 0x01] = .ok (.gbAddN 1, []) := rfl
theorem test_decode_gbAdcN : decode .gb [0xCE, 0x01] = .ok (.gbAdcN 1, []) := rfl
theorem test_decode_gbSubN : decode .gb [0xD6, 0x01] = .ok (.gbSubN 1, []) := rfl
theorem test_decode_gbSbcN : decode .gb [0xDE, 0x0F] = .ok (.gbSbcN 0x0F, []) := rfl
theorem test_decode_gbAndN : decode .gb [0xE6, 0x0F] = .ok (.gbAndN 0x0F, []) := rfl
theorem test_decode_gbXorN : decode .gb [0xEE, 0x0F] = .ok (.gbXorN 0x0F, []) := rfl
theorem test_decode_gbOrN : decode .gb [0xF6, 0x81] = .ok (.gbOrN 0x81, []) := rfl
theorem test_decode_gbCpN : decode .gb [0xFE, 0x40] = .ok (.gbCpN 0x40, []) := rfl
theorem test_decode_gbJpCc : decode .gb [0b11001010, 0x00, 0x02] = .ok (.gbJpCc .z 0x0200, []) := rfl
theorem test_decode_gbJrCc : decode .gb [0b00100000, 0xFC] = .ok (.gbJrCc .nz 0xFC, []) := rfl
theorem test_decode_gbLdPairNn : decode .gb [0b00110001, 0x00, 0xD0] = .ok (.gbLdPairNn .sp 0xD000, []) := rfl
theorem test_decode_gbAddHl : decode .gb [0b00001001] = .ok (.gbAddHl .bc, []) := rfl
theorem test_decode_gbPush : decode .gb [0b11110101] = .ok (.gbPush .af, []) := rfl
theorem test_decode_gbPop : decode .gb [0b11010001] = .ok (.gbPop .de, []) := rfl
theorem test_decode_gbLdRN : decode .gb [0b00111110, 0x12] = .ok (.gbLdRN .a 0x12, []) := rfl
theorem test_decode_gbAddR : decode .gb [0b10000110] = .ok (.gbAddR .hlMem, []) := rfl
theorem test_decode_gbAdcR : decode .gb [0b10001000] = .ok (.gbAdcR .b, []) := rfl
theorem test_decode_gbSubR : decode .gb [0b10010111] = .ok (.gbSubR .a, []) := rfl
theorem test_decode_gbSbcR : decode .gb [0b10011001] = .ok (.gbSbcR .c, []) := rfl
theorem test_decode_gbAndR : decode .gb [0b10100111] = .ok (.gbAndR .a, []) := rfl
theorem test_decode_gbXorR : decode .gb [0b10101000] = .ok (.gbXorR .b, []) := rfl
theorem test_decode_gbOrR : decode .gb [0b10110000] = .ok (.gbOrR .b, []) := rfl
theorem test_decode_gbCpR : decode .gb [0b10111110] = .ok (.gbCpR .hlMem, []) := rfl
theorem test_decode_gbLdRR : decode .gb [0b01000111] = .ok (.gbLdRR .b .a, []) := rfl
theorem test_decode_gbBit : decode .gb [0xCB, 0b01100111] = .ok (.gbBit 4 .a, []) := rfl
theorem test_decode_gbRes : decode .gb [0xCB, 0b10000000] = .ok (.gbRes 0 .b, []) := rfl
theorem test_decode_gbSet : decode .gb [0xCB, 0b11111110] = .ok (.gbSet 7 .hlMem, []) := rfl

/-! ## Decoding: words that are no instruction, and words numbered as the opcode table numbers them -/

theorem test_decode_c8_refuses :
    (decode .chip8 [0x5A, 0xB1]).isOk = false ∧ (decode .chip8 [0xFF, 0xFF]).isOk = false ∧
    (decode .chip8 [0x00, 0x00]).isOk = false ∧ (decode .chip8 [0x8A, 0xB8]).isOk = false := by decide
theorem test_decode_gb_refuses :
    (decode .gb [0x00]).isOk = false ∧ (decode .gb [0xD3]).isOk = false ∧
    (decode .gb [0xC0]).isOk = false ∧ (decode .gb [0xFF]).isOk = false := by decide
theorem test_decode_gb_truncated : decode .gb [0x3E] = .error .truncated := rfl
theorem test_table_word_c8 : decodeTableWord 16 0x6A12 = some (.c8LdByte 0xA 0x12) := by decide
theorem test_table_word_gb : decodeTableWord 8 0x3E = some (.gbLdRN .a 0) := by decide
theorem test_table_word_cb : decodeTableWord 8 0xC0 = some (.gbSet 0 .b) := by decide

/-! ## Machines for one step -/

/-- A CHIP-8 instance with its table built and one block, which is active. -/
def c8Machine (b : C8Block) (inbox : List HostOp) : State :=
  { State.reset with
    arch := .chip8, inbox := inbox,
    chip8 := { tableBuilt := true, ctx := some 0, blocks := [(0, b)], nextId := 1 } }

/-- A GB instance with its table built and one block, which is active. -/
def gbMachine (g : GbBlock) (inbox : List HostOp) : State :=
  { State.reset with
    arch := .gb, inbox := inbox,
    gb := { tableBuilt := true, ctx := some 0, blocks := [(0, g)], nextId := 1 } }

/-- A block with an opcode at 0x200, where `PC` is after reset. -/
def c8With (hi lo : Byte) (b : C8Block) : C8Block :=
  { b with mem := (b.mem.write 0x200 hi).write 0x201 lo }

/-- A block with bytes at `PC`. -/
def gbWith (bytes : List Byte) (g : GbBlock) : GbBlock :=
  { g with mem := g.mem.writeBytes g.pc.toNat bytes }

/-- The block and the reply after one Tick. -/
def c8Tick (b : C8Block) : Option (C8Block × Reply) :=
  match step (c8Machine b []) with
  | .next t => t.chip8.active.map fun b' => (b', t.reply)
  | _ => none

def gbTick (g : GbBlock) : Option (GbBlock × Reply) :=
  match step (gbMachine g []) with
  | .next t => t.gb.active.map fun g' => (g', t.reply)
  | _ => none

/-- A reset CHIP-8 block with V0, V1 and VF. -/
def c8V (v0 v1 vf : Byte) : C8Block := ((C8Block.reset.setV 0 v0).setV 1 v1).setV 15 vf

/-- V0, VF and `PC` after the Tick of an opcode. -/
def c8Regs (hi lo : Byte) (b : C8Block) : Option (Byte × Byte × Word) :=
  (c8Tick (c8With hi lo b)).map fun r => (r.1.getV 0, r.1.getV 15, r.1.pc)

/-- `A`, `F`, `PC` and the reply after the Tick of some bytes. -/
def gbRegs (bytes : List Byte) (g : GbBlock) : Option (Byte × Byte × Word × Reply) :=
  (gbTick (gbWith bytes g)).map fun r => (r.1.a, r.1.f, r.1.pc, r.2)

/-- A reset GB block with A, B, C and F. -/
def gbABCF (a b c f : Byte) : GbBlock := { GbBlock.reset with a := a, b := b, c := c, f := f }

/-! ## One step: CHIP-8 (95_test_vectors 2.2 to 2.4, and the examples of the rules) -/

theorem test_c8_ld_byte :
    c8Regs 0x60 0x12 (c8V 0 0 0) = some (0x12, 0, 0x202) := by decide
theorem test_c8_add_byte_keeps_vf :
    c8Regs 0x70 0xFF (c8V 0x02 0 1) = some (0x01, 1, 0x202) := by decide
theorem test_c8_ld_reg :
    c8Regs 0x80 0x10 (c8V 0 0x33 0) = some (0x33, 0, 0x202) := by decide
theorem test_c8_or_keeps_vf :
    c8Regs 0x80 0x11 (c8V 0xF0 0x0F 1) = some (0xFF, 1, 0x202) := by decide
theorem test_c8_and :
    c8Regs 0x80 0x12 (c8V 0xF0 0x3C 0) = some (0x30, 0, 0x202) := by decide
theorem test_c8_xor :
    c8Regs 0x80 0x13 (c8V 0xFF 0x0F 0) = some (0xF0, 0, 0x202) := by decide
theorem test_c8_add_carry :
    c8Regs 0x80 0x14 (c8V 0xC8 0x64 0) = some (0x2C, 1, 0x202) := by decide
theorem test_c8_add_into_vf :
    c8Regs 0x8F 0x14 (c8V 0 0x02 0xFF) = some (0, 1, 0x202) := by decide
theorem test_c8_sub :
    c8Regs 0x80 0x15 (c8V 0x0A 0x03 0) = some (0x07, 1, 0x202) := by decide
theorem test_c8_sub_borrow :
    c8Regs 0x80 0x15 (c8V 0x03 0x0A 1) = some (0xF9, 0, 0x202) := by decide
theorem test_c8_shr_ignores_y :
    c8Regs 0x80 0x16 (c8V 0x04 0xFF 1) = some (0x02, 0, 0x202) := by decide
theorem test_c8_shr :
    c8Regs 0x80 0x06 (c8V 0x05 0 0) = some (0x02, 1, 0x202) := by decide
theorem test_c8_subn :
    c8Regs 0x80 0x17 (c8V 0x03 0x0A 0) = some (0x07, 1, 0x202) := by decide
theorem test_c8_shl :
    c8Regs 0x80 0x0E (c8V 0x81 0 0) = some (0x02, 1, 0x202) := by decide
theorem test_c8_jp :
    c8Regs 0x12 0x34 (c8V 0 0 0) = some (0, 0, 0x234) := by decide
theorem test_c8_jp_v0 :
    c8Regs 0xB3 0x00 (c8V 0x10 0 0) = some (0x10, 0, 0x310) := by decide
theorem test_c8_se_byte_skips :
    c8Regs 0x30 0x2A (c8V 0x2A 0 0) = some (0x2A, 0, 0x204) := by decide
theorem test_c8_sne_byte_stays :
    c8Regs 0x40 0x2A (c8V 0x2A 0 0) = some (0x2A, 0, 0x202) := by decide
theorem test_c8_se_reg_skips :
    c8Regs 0x50 0x10 (c8V 7 7 0) = some (7, 0, 0x204) := by decide
theorem test_c8_sne_reg_skips :
    c8Regs 0x90 0x10 (c8V 7 8 0) = some (7, 0, 0x204) := by decide
theorem test_c8_skp :
    c8Regs 0xE0 0x9E ({ c8V 5 0 0 with key := 5 }) = some (5, 0, 0x204) := by decide
theorem test_c8_sknp_no_key :
    c8Regs 0xE0 0xA1 (c8V 5 0 0) = some (5, 0, 0x204) := by decide
theorem test_c8_ld_vx_dt :
    c8Regs 0xF0 0x07 ({ c8V 0 0 0 with dt := 0x3C }) = some (0x3C, 0, 0x202) := by decide
theorem test_c8_ld_vx_k_waits :
    c8Regs 0xF0 0x0A (c8V 9 0 0) = some (9, 0, 0x200) := by decide
theorem test_c8_ld_vx_k_latches :
    c8Regs 0xF0 0x0A ({ c8V 9 0 0 with key := 0x0B }) = some (0x0B, 0, 0x202) := by decide
theorem test_c8_call :
    (c8Tick (c8With 0x23 0x00 C8Block.reset)).map (fun r => (r.1.stack[0]?, r.1.sp, r.1.pc, r.2)) =
      some (some 0x202, 1, 0x300, .cycles 1) := by decide
theorem test_c8_call_full :
    (c8Tick (c8With 0x23 0x00 { C8Block.reset with sp := 16 })).map (fun r => (r.1.sp, r.1.pc, r.1.status, r.2)) =
      some (16, 0x202, haltedStatus 0x2300 .stackFault 0x2300, .cycles 0) := by decide
theorem test_c8_ret :
    (c8Tick (c8With 0x00 0xEE { C8Block.reset with sp := 1, stack := C8Block.reset.stack.set 0 0x204 })).map (fun r => (r.1.sp, r.1.pc)) =
      some (0, 0x204) := by decide
theorem test_c8_ret_empty :
    (c8Tick (c8With 0x00 0xEE C8Block.reset)).map (fun r => (r.1.sp, r.1.pc, r.1.status)) =
      some (0, 0x202, haltedStatus 0x00EE .stackFault 0x00EE) := by decide
theorem test_c8_ld_i :
    (c8Tick (c8With 0xA2 0xF0 C8Block.reset)).map (fun r => (r.1.i, r.1.status.lastInstruction)) =
      some (0x2F0, 0xA2F0) := by decide
theorem test_c8_add_i_wraps :
    (c8Tick (c8With 0xF0 0x1E { c8V 2 0 7 with i := 0xFFFF })).map (fun r => (r.1.i, r.1.getV 15)) =
      some (1, 7) := by decide
theorem test_c8_ld_f_low_nibble :
    (c8Tick (c8With 0xF0 0x29 (c8V 0xFF 0 0))).map (fun r => r.1.i) =
      some 0x4B := by decide
theorem test_c8_timers_written :
    (c8Tick (c8With 0xF0 0x15 (c8V 0x3C 0 0))).map (fun r => (r.1.dt, r.1.st)) =
      some (0x3C, 0) := by decide
theorem test_c8_ld_st :
    (c8Tick (c8With 0xF0 0x18 (c8V 2 0 0))).map (fun r => (r.1.dt, r.1.st)) =
      some (0, 2) := by decide
theorem test_c8_ld_b :
    (c8Tick (c8With 0xF0 0x33 { c8V 0xFF 0 0 with i := 0xFFD })).map (fun r => (r.1.mem.read 0xFFD, r.1.mem.read 0xFFE, r.1.mem.read 0xFFF, r.1.i)) =
      some (2, 5, 5, 0xFFD) := by decide
theorem test_c8_ld_b_fault :
    (c8Tick (c8With 0xF0 0x33 { c8V 0xFF 0 0 with i := 0xFFE })).map (fun r => (r.1.mem.read 0xFFE, r.1.pc, r.1.status)) =
      some (0, 0x202, haltedStatus 0xF033 .busFault 0x1000) := by decide
theorem test_c8_store_regs :
    (c8Tick (c8With 0xF1 0x55 { c8V 0x11 0x22 0 with i := 0x400 })).map (fun r => (r.1.mem.read 0x400, r.1.mem.read 0x401, r.1.mem.read 0x402, r.1.i)) =
      some (0x11, 0x22, 0, 0x400) := by decide
theorem test_c8_load_regs :
    (c8Tick (c8With 0xF1 0x65 { C8Block.reset with i := 0x400, mem := [(0x400, 0xAA), (0x401, 0xBB)] })).map (fun r => (r.1.getV 0, r.1.getV 1, r.1.getV 2)) =
      some (0xAA, 0xBB, 0) := by decide
theorem test_c8_drw_wraps :
    (c8Tick (c8With 0xD0 0x11 { c8V 62 31 7 with i := 0x300, mem := [(0x300, 0xF0)] })).map (fun r => (r.1.disp[31]?, r.1.getV 15)) =
      some (some 0xC000000000000003, 0) := by decide
theorem test_c8_drw_collides :
    (c8Tick (c8With 0xD0 0x11 { c8V 0 0 0 with i := 0x300, mem := [(0x300, 0xC0)], disp := C8Block.reset.disp.set 0 1 })).map (fun r => (r.1.disp[0]?, r.1.getV 15)) =
      some (some 2, 1) := by decide
theorem test_c8_cls :
    (c8Tick (c8With 0x00 0xE0 { c8V 0 0 7 with disp := C8Block.reset.disp.set 3 5 })).map (fun r => (r.1.disp[3]?, r.1.getV 15)) =
      some (some 0, 7) := by decide
theorem test_c8_unmatched :
    (c8Tick (c8With 0xFF 0xFF C8Block.reset)).map (fun r => (r.1.pc, r.1.status, r.2)) =
      some (0x202, haltedStatus 0xFFFF .invalidOpcode 0xFFFF, .cycles 0) := by decide

/-! ## One step: GB (95_test_vectors 2.5 to 2.8, and the examples of the rules) -/

theorem test_gb_ld_r_n :
    gbRegs [0x3E, 0x12] (gbABCF 0 0 0 0) =
      some (0x12, 0, 2, .cycles 8) := by decide
theorem test_gb_add_half_carry :
    gbRegs [0x80] (gbABCF 0x0F 1 0 0) =
      some (0x10, 0x20, 1, .cycles 4) := by decide
theorem test_gb_add_a_a :
    gbRegs [0x87] (gbABCF 0xFF 0 0 0) =
      some (0xFE, 0x30, 1, .cycles 4) := by decide
theorem test_gb_add_n :
    gbRegs [0xC6, 0x01] (gbABCF 0xFF 0 0 0) =
      some (0, 0xB0, 2, .cycles 8) := by decide
theorem test_gb_adc :
    gbRegs [0x88] (gbABCF 1 1 0 0x10) =
      some (3, 0, 1, .cycles 4) := by decide
theorem test_gb_adc_n :
    gbRegs [0xCE, 0x00] (gbABCF 0x0F 0 0 0x10) =
      some (0x10, 0x20, 2, .cycles 8) := by decide
theorem test_gb_sub :
    gbRegs [0x90] (gbABCF 0 1 0 0) =
      some (0xFF, 0x70, 1, .cycles 4) := by decide
theorem test_gb_sub_n :
    gbRegs [0xD6, 0x01] (gbABCF 0x10 0 0 0) =
      some (0x0F, 0x60, 2, .cycles 8) := by decide
theorem test_gb_sbc :
    gbRegs [0x99] (gbABCF 5 0 2 0x10) =
      some (2, 0x40, 1, .cycles 4) := by decide
theorem test_gb_sbc_n_ff :
    gbRegs [0xDE, 0xFF] (gbABCF 0xFF 0 0 0x10) =
      some (0xFF, 0x70, 2, .cycles 8) := by decide
theorem test_gb_and_a :
    gbRegs [0xA7] (gbABCF 0x5A 0 0 0xD0) =
      some (0x5A, 0x20, 1, .cycles 4) := by decide
theorem test_gb_and_n :
    gbRegs [0xE6, 0x0F] (gbABCF 0xF0 0 0 0) =
      some (0, 0xA0, 2, .cycles 8) := by decide
theorem test_gb_xor :
    gbRegs [0xA8] (gbABCF 0xFF 0x0F 0 0) =
      some (0xF0, 0, 1, .cycles 4) := by decide
theorem test_gb_xor_n :
    gbRegs [0xEE, 0x5A] (gbABCF 0x5A 0 0 0xF0) =
      some (0, 0x80, 2, .cycles 8) := by decide
theorem test_gb_or :
    gbRegs [0xB0] (gbABCF 0 0 0 0x70) =
      some (0, 0x80, 1, .cycles 4) := by decide
theorem test_gb_or_n :
    gbRegs [0xF6, 0x81] (gbABCF 2 0 0 0) =
      some (0x83, 0, 2, .cycles 8) := by decide
theorem test_gb_cp :
    gbRegs [0xBF] (gbABCF 0x3C 0 0 0) =
      some (0x3C, 0xC0, 1, .cycles 4) := by decide
theorem test_gb_cp_n :
    gbRegs [0xFE, 0x40] (gbABCF 0x3C 0 0 0) =
      some (0x3C, 0x50, 2, .cycles 8) := by decide
theorem test_gb_jp :
    gbRegs [0xC3, 0x50, 0x01] (gbABCF 0 0 0 0) =
      some (0, 0, 0x150, .cycles 16) := by decide
theorem test_gb_jp_cc_not_taken :
    gbRegs [0xDA, 0x34, 0x12] (gbABCF 0 0 0 0) =
      some (0, 0, 3, .cycles 12) := by decide
theorem test_gb_jp_cc_taken :
    gbRegs [0xD2, 0x34, 0x12] (gbABCF 0 0 0 0) =
      some (0, 0, 0x1234, .cycles 16) := by decide
theorem test_gb_jr_back :
    gbRegs [0x18, 0xFB] ({ gbABCF 0 0 0 0 with pc := 0x100 }) =
      some (0, 0, 0xFD, .cycles 12) := by decide
theorem test_gb_jr_cc :
    gbRegs [0x20, 0xFC] ({ gbABCF 0 0 0 0x80 with pc := 4 }) =
      some (0, 0x80, 6, .cycles 8) := by decide
theorem test_gb_bit :
    gbRegs [0xCB, 0x67] (gbABCF 0x10 0 0 0x10) =
      some (0x10, 0x30, 2, .cycles 8) := by decide
theorem test_gb_ld_r_r :
    (gbTick (gbWith [0x47] (gbABCF 0x12 0 0 0))).map (fun r => (r.1.b, r.2)) =
      some (0x12, .cycles 4) := by decide
theorem test_gb_ld_h_hl :
    (gbTick (gbWith [0x66] { GbBlock.reset with h := 0xC0, mem := [(0xC000, 0x5A)] })).map (fun r => (r.1.hl, r.2)) =
      some (0x5A00, .cycles 8) := by decide
theorem test_gb_ld_sp_nn :
    (gbTick (gbWith [0x31, 0x00, 0xD0] GbBlock.reset)).map (fun r => (r.1.sp, r.1.pc)) =
      some (0xD000, 3) := by decide
theorem test_gb_ld_bc_a :
    (gbTick (gbWith [0x02] { gbABCF 0x7E 0xC0 0x10 0 with pc := 0 })).map (fun r => (r.1.mem.read 0xC010, r.2)) =
      some (0x7E, .cycles 8) := by decide
theorem test_gb_ld_de_a :
    (gbTick (gbWith [0x12] { gbABCF 1 0 0 0 with d := 0xC0, e := 0x20 })).map (fun r => (r.1.mem.read 0xC020, r.2)) =
      some (1, .cycles 8) := by decide
theorem test_gb_ldi_wraps :
    (gbTick (gbWith [0x22] { gbABCF 0x11 0 0 0 with h := 0xFF, l := 0xFF })).map (fun r => (r.1.mem.read 0xFFFF, r.1.hl)) =
      some (0x11, 0) := by decide
theorem test_gb_ldd_wraps :
    (gbTick (gbWith [0x32] { gbABCF 0x22 0 0 0 with pc := 0x100 })).map (fun r => (r.1.mem.read 0, r.1.hl)) =
      some (0x22, 0xFFFF) := by decide
theorem test_gb_ld_a_bc :
    (gbTick (gbWith [0x0A] { gbABCF 0 0xC0 0x10 0 with mem := [(0xC010, 0x7E)] })).map (fun r => r.1.a) =
      some 0x7E := by decide
theorem test_gb_ld_a_de :
    (gbTick (gbWith [0x1A] { GbBlock.reset with d := 0xC0, e := 0x20, mem := [(0xC020, 1)] })).map (fun r => r.1.a) =
      some 1 := by decide
theorem test_gb_ldi_a_hl :
    (gbTick (gbWith [0x2A] { GbBlock.reset with h := 0xC0, mem := [(0xC000, 0x11)] })).map (fun r => (r.1.a, r.1.hl)) =
      some (0x11, 0xC001) := by decide
theorem test_gb_ldd_a_hl :
    (gbTick (gbWith [0x3A] { GbBlock.reset with h := 0xC0, l := 1, mem := [(0xC001, 0x22)] })).map (fun r => (r.1.a, r.1.hl)) =
      some (0x22, 0xC000) := by decide
theorem test_gb_push_wraps :
    (gbTick (gbWith [0xC5] { gbABCF 0 0xBE 0xEF 0 with pc := 0x100, sp := 1 })).map (fun r => (r.1.mem.read 0, r.1.mem.read 0xFFFF, r.1.sp)) =
      some (0xBE, 0xEF, 0xFFFF) := by decide
theorem test_gb_pop_af :
    (gbTick (gbWith [0xF1] { GbBlock.reset with sp := 0xFFFC, mem := [(0xFFFC, 0xFF), (0xFFFD, 0x12)] })).map (fun r => (r.1.a, r.1.f, r.1.sp)) =
      some (0x12, 0xF0, 0xFFFE) := by decide
theorem test_gb_add_hl :
    (gbTick (gbWith [0x29] { GbBlock.reset with h := 0x88, f := 0xC0 })).map (fun r => (r.1.hl, r.1.f, r.2)) =
      some (0x1000, 0xB0, .cycles 8) := by decide
theorem test_gb_call :
    (gbTick (gbWith [0xCD, 0x00, 0x02] { GbBlock.reset with pc := 0x10 })).map (fun r => (r.1.mem.read 0xFFFD, r.1.mem.read 0xFFFC, r.1.sp, r.1.pc, r.2)) =
      some (0x00, 0x13, 0xFFFC, 0x200, .cycles 24) := by decide
theorem test_gb_ret :
    (gbTick (gbWith [0xC9] { GbBlock.reset with pc := 0x200, sp := 0xFFFC, mem := [(0xFFFC, 0x13)] })).map (fun r => (r.1.pc, r.1.sp, r.2)) =
      some (0x13, 0xFFFE, .cycles 16) := by decide
theorem test_gb_halt :
    (gbTick (gbWith [0x76] { GbBlock.reset with pc := 5 })).map (fun r => (r.1.pc, r.1.status, r.2)) =
      some (6, haltedStatus 0x76 .haltInstruction 0x76, .cycles 0) := by decide
theorem test_gb_stop :
    (gbTick (gbWith [0x10, 0x00] GbBlock.reset)).map (fun r => (r.1.pc, r.1.status, r.2)) =
      some (1, haltedStatus 0x10 .haltInstruction 0x10, .cycles 0) := by decide
theorem test_gb_di :
    (gbTick (gbWith [0xF3] { GbBlock.reset with ime := true })).map (fun r => r.1.ime) =
      some false := by decide
theorem test_gb_ei :
    (gbTick (gbWith [0xFB] GbBlock.reset)).map (fun r => r.1.ime) =
      some true := by decide
theorem test_gb_res :
    (gbTick (gbWith [0xCB, 0xBE] { GbBlock.reset with h := 0xC0, mem := [(0xC000, 0xFF)] })).map (fun r => (r.1.mem.read 0xC000, r.2)) =
      some (0x7F, .cycles 16) := by decide
theorem test_gb_set :
    (gbTick (gbWith [0xCB, 0xC1] GbBlock.reset)).map (fun r => (r.1.c, r.1.status.lastInstruction, r.2)) =
      some (1, 0xCB, .cycles 8) := by decide
theorem test_gb_prefix_unmatched :
    (gbTick (gbWith [0xCB, 0x37] (gbABCF 0xAB 0 0 0x50))).map (fun r => (r.1.pc, r.1.a, r.1.f, r.1.status, r.2)) =
      some (2, 0xAB, 0x50, haltedStatus 0xFFFF .invalidOpcode 0xCB37, .cycles 0) := by decide

/-! ## The random byte and the host operations (95_test_vectors 2.9) -/

theorem test_c8_rnd_draws_once :
    (match step (c8Machine (c8With 0xC0 0x0F C8Block.reset) []) with
      | .next t => some t.draws | _ => none) = some 1 := by decide
theorem test_tick_without_context : step State.reset = .refused .noContext := rfl
theorem test_set_keyboard_value :
    (match step (c8Machine C8Block.reset [.setKeyboardValue 0x105]) with
      | .next t => t.chip8.active.map C8Block.key | _ => none) = some 5 := by decide
theorem test_timer_tick :
    (match step (c8Machine { C8Block.reset with dt := 2 } [.timerTick]) with
      | .next t => t.chip8.active.map fun b => (b.dt, b.st) | _ => none) = some (1, 0) := by decide
set_option maxRecDepth 8000 in
theorem test_load_program :
    (match step (c8Machine C8Block.reset [.loadProgram (some [0x6A, 0x12])]) with
      | .next t => t.chip8.active.map fun b =>
        (t.reply, b.mem.read 0x200, b.mem.read 0x201, b.mem.read 0x4B, b.mem.read 0x4F)
      | _ => none) = some (.bytesLoaded 2, 0x6A, 0x12, 0xF0, 0x80) := by decide
theorem test_load_absent_image :
    (match step (gbMachine GbBlock.reset [.loadProgram none]) with
      | .next t => some (t.reply, t.gb.tableBuilt) | _ => none) = some (.bytesLoaded 0, true) := by decide
/-- Another table than the default: the figure that `LD r,r'` reports is the table's (40_dispatch_tick R125). -/
theorem test_other_cycle_table :
    (match step { gbMachine (gbWith [0x47] GbBlock.reset) [] with
        gbParams := { cycles := { ldRR := ⟨7, by decide⟩ } } } with
      | .next t => some t.reply | _ => none) = some (.cycles 7) := by decide
theorem test_quit_program :
    (match step (c8Machine C8Block.reset [.quitProgram]) with
      | .next t => some (t.chip8.ctx, t.chip8.blocks.length, t.chip8.tableBuilt)
      | _ => none) = some (none, 0, true) := by decide
theorem test_fetch_word_c8 :
    (match step (State.reset.withFetchWord 16 0x6A12) with
      | .next t => t.chip8.active.map fun b => b.getV 0xA | _ => none) = some 0x12 := by decide
theorem test_fetch_word_gb :
    (match step (State.reset.withFetchWord 8 0xC7) with
      | .next t => t.gb.active.map fun g => (g.a, g.pc) | _ => none) = some (1, 2) := by decide

/-! ## Witnesses: states and operands that meet the hypotheses of each obligation -/

/-- A block with an opcode at the last place a CHIP-8 instruction can start. -/
def c8Edge (hi lo : Byte) : C8Block := { C8Block.reset with pc := 0xFFE, mem := [(0xFFE, hi), (0xFFF, lo)] }

/-- A running block about to execute the opcode at 0x200. -/
def c8At (hi lo : Byte) : C8Block := { C8Block.reset with mem := [(0x200, hi), (0x201, lo)] }

def c8Halted : C8Block := C8Block.reset.halt .busFault 0x1000
def gbHalted : GbBlock := GbBlock.reset.halt .haltInstruction 0x76

/-- Whether an outcome is a next state. -/
def goesOn (o : Host.Outcome State Fault Refusal) : Bool :=
  match o with
  | .next _ => true
  | _ => false

theorem goesOn_next {o : Host.Outcome State Fault Refusal} (h : goesOn o = true) : ∃ t, o = .next t := by
  cases o with
  | next t => exact ⟨t, rfl⟩
  | fault f => cases h
  | refused r => cases h

theorem c8Machine_ready (b : C8Block) (inbox : List HostOp) : C8Ready (c8Machine b inbox) b := ⟨rfl, rfl⟩
theorem gbMachine_ready (g : GbBlock) (inbox : List HostOp) : GbReady (gbMachine g inbox) g := ⟨rfl, rfl⟩

theorem witness_DecodeOfEncode :
    (Instr.gbLdRR .hlMem .a).wellFormed = true ∧ (Instr.gbPrefixCb 0x3F).wellFormed = true ∧
    (Instr.c8Shr 15 15).wellFormed = true := by decide
theorem witness_EncodeOfDecode :
    decode .gb [0xCB, 0x3F, 0x00] = .ok (.gbPrefixCb 0x3F, [0x00]) ∧
    decode .chip8 [0xFF, 0x65] = .ok (.c8LoadRegs 15, []) := ⟨rfl, rfl⟩
theorem witness_PatternsDisjoint :
    (∃ e ∈ c8Table, (0x8AB4 : Word) &&& e.mask = e.mtch) ∧
    (∃ e ∈ gbTable, (0x0076 : Word) &&& e.mask = e.mtch) ∧
    (∃ e ∈ cbTable, (0x0040 : Word) &&& e.mask = e.mtch) := by decide
/-- The hypotheses of a statement about the Tick of an instruction, on the machine with one CHIP-8 block. -/
def C8TickOf (b : C8Block) (i : Instr) : Prop :=
  AboutToTick (c8Machine b []) ∧ C8Ready (c8Machine b []) b ∧ b.status.Running ∧
    (c8Machine b []).chip8.tableBuilt = true ∧ b.pc.toNat ≤ 0xFFE ∧
    decode .chip8 b.opcodeBytes = .ok (i, [])

theorem witness_StepRunsDecodedC8 : C8TickOf (c8Edge 0x6A 0x12) (.c8LdByte 0xA 0x12) :=
  ⟨rfl, ⟨rfl, rfl⟩, rfl, rfl, by decide, rfl⟩

/-- A GB block whose two-byte instruction wraps from 0xFFFF to 0x0000. -/
def gbEdge : GbBlock := { GbBlock.reset with pc := 0xFFFF, mem := [(0, 0x12), (0xFFFF, 0x3E)] }

theorem witness_StepRunsDecodedGb :
    (AboutToTick (gbMachine gbEdge []) ∧ GbReady (gbMachine gbEdge []) gbEdge ∧ gbEdge.status.Running ∧
      (gbMachine gbEdge []).gb.tableBuilt = true) ∧
    decode .gb [gbEdge.memRead gbEdge.pc, gbEdge.memRead (gbEdge.pc + 1), gbEdge.memRead (gbEdge.pc + 2)] =
      .ok (.gbLdRN .a 0x12, [0]) := ⟨⟨rfl, ⟨rfl, rfl⟩, rfl, rfl⟩, rfl⟩
theorem witness_UnmatchedOpcodeHalts :
    (AboutToTick (c8Machine (c8Edge 0xFF 0xFF) []) ∧
      C8Ready (c8Machine (c8Edge 0xFF 0xFF) []) (c8Edge 0xFF 0xFF) ∧ (c8Edge 0xFF 0xFF).status.Running ∧
      (c8Edge 0xFF 0xFF).pc.toNat ≤ 0xFFE ∧ fetch c8Table (c8Edge 0xFF 0xFF).opcode = none) ∧
    (AboutToTick (gbMachine GbBlock.reset []) ∧ GbReady (gbMachine GbBlock.reset []) GbBlock.reset ∧
      GbBlock.reset.status.Running ∧
      fetch gbTable ((GbBlock.reset.memRead GbBlock.reset.pc).setWidth 16) = none) :=
  ⟨⟨rfl, ⟨rfl, rfl⟩, rfl, by decide, by decide⟩, rfl, ⟨rfl, rfl⟩, rfl, by decide⟩
theorem witness_UnmatchedOpcodeHalts_cb :
    AboutToTick (gbMachine (gbWith [0xCB, 0x3F] GbBlock.reset) []) ∧
    GbReady (gbMachine (gbWith [0xCB, 0x3F] GbBlock.reset) []) (gbWith [0xCB, 0x3F] GbBlock.reset) ∧
    (gbWith [0xCB, 0x3F] GbBlock.reset).status.Running ∧
    (gbMachine (gbWith [0xCB, 0x3F] GbBlock.reset) []).gb.tableBuilt = true ∧
    (gbWith [0xCB, 0x3F] GbBlock.reset).memRead (gbWith [0xCB, 0x3F] GbBlock.reset).pc = 0xCB ∧
    (gbWith [0xCB, 0x3F] GbBlock.reset).memRead ((gbWith [0xCB, 0x3F] GbBlock.reset).pc + 1) = 0x3F ∧
    fetch cbTable ((0x3F : Byte).setWidth 16) = none :=
  ⟨rfl, ⟨rfl, rfl⟩, rfl, rfl, by decide, by decide, by decide⟩
/-- The reset machine with its CHIP-8 block, or its GB block, selected: no table is built. -/
def c8NoTable : State := { State.reset with chip8 := { State.reset.chip8 with ctx := some 0 } }
def gbNoTable : State := { State.reset with arch := .gb, gb := { State.reset.gb with ctx := some 0 } }

theorem witness_UnmatchedOpcodeHalts_empty_table :
    (AboutToTick c8NoTable ∧ C8Ready c8NoTable C8Block.reset ∧ C8Block.reset.status.Running ∧
      C8Block.reset.pc.toNat ≤ 0xFFE ∧ c8NoTable.chip8.tableBuilt = false) ∧
    (AboutToTick gbNoTable ∧ GbReady gbNoTable GbBlock.reset ∧ GbBlock.reset.status.Running ∧
      gbNoTable.gb.tableBuilt = false) :=
  ⟨⟨rfl, ⟨rfl, rfl⟩, rfl, by decide, rfl⟩, rfl, ⟨rfl, rfl⟩, rfl, rfl⟩
theorem witness_BusFaults_read :
    AboutToTick (c8Machine { C8Block.reset with pc := 0xFFF } []) ∧
    C8Ready (c8Machine { C8Block.reset with pc := 0xFFF } []) { C8Block.reset with pc := 0xFFF } ∧
    ({ C8Block.reset with pc := 0xFFF } : C8Block).status.Running ∧ 0xFFE < (0xFFF : Word).toNat :=
  ⟨rfl, ⟨rfl, rfl⟩, rfl, by decide⟩

/-- A block about to execute an opcode with `I` at a given value. -/
def c8AtI (hi lo : Byte) (i : Word) : C8Block := { c8At hi lo with i := i }

theorem witness_BusFaults_access :
    (C8TickOf (c8AtI 0xD0 0x12 0xFFF) (.c8Drw 0 1 2) ∧ 0xFFF < (c8AtI 0xD0 0x12 0xFFF).i.toNat + 1) ∧
    (C8TickOf (c8AtI 0xF0 0x33 0xFFE) (.c8LdB 0) ∧ 0xFFF < (c8AtI 0xF0 0x33 0xFFE).i.toNat + 2) ∧
    (C8TickOf (c8AtI 0xF0 0x55 0x1000) (.c8StoreRegs 0) ∧ 0xFFF < (c8AtI 0xF0 0x55 0x1000).i.toNat + 0) ∧
    (C8TickOf (c8AtI 0xFF 0x65 0xFF1) (.c8LoadRegs 15) ∧ 0xFFF < (c8AtI 0xFF 0x65 0xFF1).i.toNat + 15) :=
  ⟨⟨⟨rfl, ⟨rfl, rfl⟩, rfl, rfl, by decide, rfl⟩, by decide⟩,
    ⟨⟨rfl, ⟨rfl, rfl⟩, rfl, rfl, by decide, rfl⟩, by decide⟩,
    ⟨⟨rfl, ⟨rfl, rfl⟩, rfl, rfl, by decide, rfl⟩, by decide⟩,
    ⟨rfl, ⟨rfl, rfl⟩, rfl, rfl, by decide, rfl⟩, by decide⟩
theorem witness_StackFaults :
    (C8TickOf { c8At 0x23 0x00 with sp := 16 } (.c8Call 0x300) ∧
      ({ c8At 0x23 0x00 with sp := 16 } : C8Block).sp = 16) ∧
    C8TickOf (c8At 0x00 0xEE) .c8Ret ∧ (c8At 0x00 0xEE).sp = 0 :=
  ⟨⟨⟨rfl, ⟨rfl, rfl⟩, rfl, rfl, by decide, rfl⟩, rfl⟩, ⟨rfl, ⟨rfl, rfl⟩, rfl, rfl, by decide, rfl⟩, rfl⟩
theorem witness_HaltedTickChangesNothing :
    (AboutToTick (c8Machine c8Halted []) ∧ C8Ready (c8Machine c8Halted []) c8Halted ∧
      c8Halted.status.run = .halted) ∧
    (AboutToTick (gbMachine gbHalted []) ∧ GbReady (gbMachine gbHalted []) gbHalted ∧
      gbHalted.status.run = .halted) := ⟨⟨rfl, ⟨rfl, rfl⟩, rfl⟩, rfl, ⟨rfl, rfl⟩, rfl⟩
theorem witness_ReplyZeroIffHalted :
    (∀ b, AboutToTick (c8Machine b [])) ∧ (∀ g, AboutToTick (gbMachine g [])) ∧
    (∃ t, step (c8Machine (c8At 0x6A 0x12) []) = .next t) ∧ (∃ t, step (c8Machine c8Halted []) = .next t) ∧
    (∃ t, step (gbMachine (gbWith [0x47] GbBlock.reset) []) = .next t) ∧
    ∃ t, step (gbMachine gbHalted []) = .next t :=
  ⟨fun _ => rfl, fun _ => rfl, goesOn_next (by decide), goesOn_next (by decide), goesOn_next (by decide),
    goesOn_next (by decide)⟩
theorem witness_LastInstructionRecorded :
    ((∀ b, AboutToTick (c8Machine b []) ∧ C8Ready (c8Machine b []) b) ∧
      (∃ t b', step (c8Machine (c8At 0x6A 0x12) []) = .next t ∧ C8Ready t b') ∧
      ∃ t b', step (c8Machine (c8At 0xFF 0xFF) []) = .next t ∧ C8Ready t b') ∧
    (∀ g, AboutToTick (gbMachine g []) ∧ GbReady (gbMachine g []) g) ∧
    (∃ t g', step (gbMachine (gbWith [0x47] GbBlock.reset) []) = .next t ∧ GbReady t g') ∧
    ∃ t g', step (gbMachine (gbWith [0xCB, 0x3F] GbBlock.reset) []) = .next t ∧ GbReady t g' :=
  ⟨⟨fun _ => ⟨rfl, rfl, rfl⟩, ⟨_, _, rfl, rfl, rfl⟩, _, _, rfl, rfl, rfl⟩, fun _ => ⟨rfl, rfl, rfl⟩,
    ⟨_, _, rfl, rfl, rfl⟩, _, _, rfl, rfl, rfl⟩
theorem witness_HaltsArePrecise :
    (AboutToTick (c8Machine { c8At 0x23 0x00 with sp := 16 } []) ∧
      C8Ready (c8Machine { c8At 0x23 0x00 with sp := 16 } []) { c8At 0x23 0x00 with sp := 16 } ∧
      (c8At 0x23 0x00).status.Running ∧
      ∃ t b', step (c8Machine { c8At 0x23 0x00 with sp := 16 } []) = .next t ∧ C8Ready t b' ∧
        b'.status.run = .halted) ∧
    (AboutToTick (gbMachine (gbWith [0x76] GbBlock.reset) []) ∧
      GbReady (gbMachine (gbWith [0x76] GbBlock.reset) []) (gbWith [0x76] GbBlock.reset) ∧
      (gbWith [0x76] GbBlock.reset).status.Running ∧
      ∃ t g', step (gbMachine (gbWith [0x76] GbBlock.reset) []) = .next t ∧ GbReady t g' ∧
        g'.status.run = .halted) :=
  ⟨⟨rfl, ⟨rfl, rfl⟩, rfl, _, _, rfl, ⟨rfl, rfl⟩, rfl⟩, rfl, ⟨rfl, rfl⟩, rfl, _, _, rfl, ⟨rfl, rfl⟩, rfl⟩
theorem witness_HaltIsTerminal :
    ((c8Machine c8Halted [.setKeyboardValue 5]).chip8.blocks.lookup 0 = some c8Halted ∧
      c8Halted.status.run = .halted ∧
      ∃ t b', step (c8Machine c8Halted [.setKeyboardValue 5]) = .next t ∧
        t.chip8.blocks.lookup 0 = some b') ∧
    (gbMachine gbHalted [.loadProgram none]).gb.blocks.lookup 0 = some gbHalted ∧
    gbHalted.status.run = .halted ∧
    ∃ t g', step (gbMachine gbHalted [.loadProgram none]) = .next t ∧ t.gb.blocks.lookup 0 = some g' :=
  ⟨⟨rfl, rfl, _, _, rfl, rfl⟩, rfl, rfl, _, _, rfl, rfl⟩

/-- The reset machine with its CHIP-8 block selected. -/
abbrev selected : State := c8NoTable

theorem c8Reset_good : C8Block.reset.Good :=
  ⟨by decide, ⟨List.Pairwise.nil, fun _ h => nomatch h⟩, ⟨by decide, by decide⟩⟩
theorem gbReset_good : GbBlock.reset.Good :=
  ⟨by decide, ⟨List.Pairwise.nil, fun _ h => nomatch h⟩, ⟨by decide, by decide⟩⟩

theorem selected_good : selected.Good := by
  refine ⟨⟨fun c hc => ?_, by decide, fun id h => ?_⟩, ⟨fun c hc => ?_, by decide, fun id h => by cases h⟩,
    by decide, List.Pairwise.nil, fun _ h => nomatch h⟩
  · obtain rfl := List.mem_singleton.1 hc
    exact ⟨c8Reset_good, by decide⟩
  · injection h with h
    subst h
    rfl
  · obtain rfl := List.mem_singleton.1 hc
    exact ⟨gbReset_good, by decide⟩

theorem witness_StepKeepsGood : selected.Good ∧ ∃ t, step selected = .next t :=
  ⟨selected_good, goesOn_next (by decide)⟩
theorem witness_HandlersTouchOnlyTheActiveBlock :
    (∃ t, exec (.c8LdByte 1 2) (c8Machine C8Block.reset []) = .next t) ∧
    (∃ t, exec .gbEi (gbMachine GbBlock.reset []) = .next t) ∧
    ∃ t, step (c8Machine C8Block.reset [.quitProgram]) = .next t :=
  ⟨goesOn_next (by decide), goesOn_next (by decide), goesOn_next (by decide)⟩
/-- Whether an outcome is a next state whose instance has an active block. -/
def staysReady (o : Host.Outcome State Fault Refusal) : Bool :=
  match o with
  | .next t =>
    match t.arch with
    | .chip8 => t.chip8.active.isSome
    | .gb => t.gb.active.isSome
  | _ => false

theorem witness_C8WritersOfEachField :
    C8Ready (c8Machine C8Block.reset []) C8Block.reset ∧
    ∀ i ∈ ([.c8LdByte 15 1, .c8LdReg 0 15, .c8LdVxDt 15, .c8LoadRegs 0, .c8LoadRegs 15, .c8Shl 15 0, .c8Drw 0 1 15,
        .c8Jp 0xFFF, .c8Call 0, .c8Ret, .c8SneByte 0 1, .c8SeReg 0 15, .c8LdVxK 0, .c8LdI 1, .c8AddI 15, .c8LdF 0,
        .c8LdDtVx 0, .c8LdStVx 15, .c8Cls, .c8LdB 0, .c8StoreRegs 15] : List Instr),
      staysReady (exec i (c8Machine C8Block.reset [])) = true := ⟨⟨rfl, rfl⟩, by decide⟩
theorem witness_GbWritersOfEachField :
    GbReady (gbMachine GbBlock.reset []) GbBlock.reset ∧
    ∀ i ∈ ([.gbLdRR .b .hlMem, .gbLdRR .hlMem .a, .gbLdRN .a 1, .gbLdPairNn .sp 1, .gbPop .af, .gbRes 7 .l,
        .gbSet 0 .hlMem, .gbPrefixCb 0x3F, .gbPrefixCb 0x40, .gbPrefixCb 0x7F, .gbPrefixCb 0x80, .gbPrefixCb 0xFE,
        .gbLdiHlA, .gbLddAHl, .gbAddHl .hl, .gbLdADe, .gbOrR .a, .gbCpN 1, .gbBit 7 .hlMem, .gbJp 1, .gbJpCc .nz 1,
        .gbJr 0x80, .gbJrCc .c 1, .gbCall 1, .gbRet, .gbPush .af, .gbDi, .gbEi, .gbHalt, .gbStop] : List Instr),
      staysReady (exec i (gbMachine GbBlock.reset [])) = true := ⟨⟨rfl, rfl⟩, by decide⟩
theorem witness_GbFlagsKept :
    ∃ t g', exec (.gbPop .bc) (gbMachine GbBlock.reset []) = .next t ∧ GbReady t g' ∧
      (StackPair.bc ≠ .af) := ⟨_, _, rfl, ⟨rfl, rfl⟩, by decide⟩
theorem witness_C8RegisterLoads : C8Ready (c8Machine (c8V 1 2 3) []) (c8V 1 2 3) := ⟨rfl, rfl⟩
theorem witness_C8LogicAndImmediateAdd : C8Ready (c8Machine (c8V 0xFF 2 3) []) (c8V 0xFF 2 3) := ⟨rfl, rfl⟩
theorem witness_C8FlagArithmetic :
    C8Ready (c8Machine (c8V 0xFF 2 3) []) (c8V 0xFF 2 3) ∧ 0xFF = ((c8V 0xFF 2 3).getV 0).toNat ∧
    2 = ((c8V 0xFF 2 3).getV 1).toNat := ⟨⟨rfl, rfl⟩, by decide, by decide⟩
theorem witness_C8IndexWrites :
    C8Ready (c8Machine { c8V 2 0 0 with i := 0xFFFF } []) { c8V 2 0 0 with i := 0xFFFF } := ⟨rfl, rfl⟩
theorem witness_C8RandomByte : C8Ready (c8Machine C8Block.reset []) C8Block.reset := ⟨rfl, rfl⟩
theorem witness_C8Jumps : C8Ready (c8Machine (c8V 0xFF 0 0) []) (c8V 0xFF 0 0) := ⟨rfl, rfl⟩
theorem witness_C8Skips :
    C8Ready (c8Machine (c8V 5 5 0) []) (c8V 5 5 0) ∧ (c8V 5 5 0).getV 0 = (c8V 5 5 0).getV 1 ∧
    (c8V 5 5 0).getV 0 = 5 ∧ (c8V 5 5 0).key ≠ (c8V 5 5 0).getV 0 := ⟨⟨rfl, rfl⟩, by decide⟩
theorem witness_C8CallAndReturn :
    ∀ n ∈ ([0, 1, 15, 16] : List Byte),
      C8Ready (c8Machine { C8Block.reset with sp := n } []) { C8Block.reset with sp := n } :=
  fun _ _ => ⟨rfl, rfl⟩
theorem witness_C8ReturnAfterCall :
    C8Ready (c8Machine { C8Block.reset with sp := 15 } []) { C8Block.reset with sp := 15 } ∧
    ({ C8Block.reset with sp := 15 } : C8Block).sp.toNat < 16 := ⟨⟨rfl, rfl⟩, by decide⟩
theorem witness_C8ClearScreen : C8Ready (c8Machine C8Block.reset []) C8Block.reset := ⟨rfl, rfl⟩
theorem witness_C8DrawSprite :
    (∀ i : Word, C8Ready (c8Machine (c8AtI 0 0 i) []) (c8AtI 0 0 i)) ∧
    (c8AtI 0 0 0xFF1).i.toNat + (15 : BitVec 4).toNat ≤ 0x1000 ∧
    0x1000 < (c8AtI 0 0 0xFF2).i.toNat + (15 : BitVec 4).toNat ∧ (15 : BitVec 4) ≠ 0 :=
  ⟨fun _ => ⟨rfl, rfl⟩, by decide⟩
theorem witness_C8TimerWritesAndKeyWait :
    (C8Ready (c8Machine C8Block.reset []) C8Block.reset ∧ C8Block.reset.key = 0xFF) ∧
    C8Ready (c8Machine { C8Block.reset with key := 0xFE } []) { C8Block.reset with key := 0xFE } ∧
    ({ C8Block.reset with key := 0xFE } : C8Block).key ≠ 0xFF := ⟨⟨⟨rfl, rfl⟩, rfl⟩, ⟨rfl, rfl⟩, by decide⟩
theorem witness_C8DecimalStore :
    (∀ i : Word, C8Ready (c8Machine (c8AtI 0 0 i) []) (c8AtI 0 0 i)) ∧
    (c8AtI 0 0 0xFFD).i.toNat + 2 ≤ 0xFFF ∧ 0xFFF < (c8AtI 0 0 0xFFE).i.toNat + 2 :=
  ⟨fun _ => ⟨rfl, rfl⟩, by decide⟩
theorem witness_C8StoreRegisters :
    (∀ i : Word, C8Ready (c8Machine (c8AtI 0 0 i) []) (c8AtI 0 0 i)) ∧
    (c8AtI 0 0 0xFF0).i.toNat + (15 : BitVec 4).toNat ≤ 0xFFF ∧
    0xFFF < (c8AtI 0 0 0xFF1).i.toNat + (15 : BitVec 4).toNat := ⟨fun _ => ⟨rfl, rfl⟩, by decide⟩
theorem witness_C8LoadRegisters :
    (∀ i : Word, C8Ready (c8Machine (c8AtI 0 0 i) []) (c8AtI 0 0 i)) ∧
    (c8AtI 0 0 0xFFF).i.toNat + (0 : BitVec 4).toNat ≤ 0xFFF ∧
    0xFFF < (c8AtI 0 0 0x1000).i.toNat + (0 : BitVec 4).toNat := ⟨fun _ => ⟨rfl, rfl⟩, by decide⟩

/-- A GB block with all registers set, and `HL` and `SP` at the top of memory. -/
def gbTop : GbBlock :=
  { GbBlock.reset with
    a := 0xFF, b := 1, c := 2, d := 3, e := 4, h := 0xFF, l := 0xFF, f := 0xF0, sp := 0xFFFF, pc := 0xFFFF }

theorem gbTop_ready : GbReady (gbMachine gbTop []) gbTop := ⟨rfl, rfl⟩
theorem witness_GbLoads8 :
    GbReady (gbMachine gbTop []) gbTop ∧
    (∃ src, Instr.gbLdRR .hlMem .h = .gbLdRR .hlMem src ∧ (0xFF : Byte) = gbTop.getR src ∧ (0 : Word) = 0) :=
  ⟨gbTop_ready, .h, rfl, by decide, rfl⟩
theorem witness_GbLoads16 : GbReady (gbMachine gbTop []) gbTop := gbTop_ready
theorem witness_GbIndirectStores : GbReady (gbMachine gbTop []) gbTop := gbTop_ready
theorem witness_GbIndirectLoads : GbReady (gbMachine gbTop []) gbTop := gbTop_ready
theorem witness_GbPushAndPop :
    GbReady (gbMachine gbTop []) gbTop ∧ StackPair.bc ≠ .af ∧ StackPair.af = .af :=
  ⟨gbTop_ready, by decide, rfl⟩
theorem witness_GbPopAfterPush : GbReady (gbMachine gbTop []) gbTop := gbTop_ready
theorem witness_GbAdds :
    GbReady (gbMachine gbTop []) gbTop ∧ OperandForm .gbAddR .gbAddN gbTop (.gbAddR .b) 1 0 ∧
    OperandForm .gbAdcR .gbAdcN gbTop (.gbAdcN 0x80) 0x80 1 ∧ 1 = (gbTop.f.getLsbD 4).toNat :=
  ⟨gbTop_ready, .inl ⟨.b, rfl, by decide, rfl⟩, .inr ⟨rfl, rfl⟩, by decide⟩
theorem witness_GbSubtractsAndCompare :
    GbReady (gbMachine gbTop []) gbTop ∧ OperandForm .gbSubR .gbSubN gbTop (.gbSubR .b) 1 0 ∧
    ((0xFE : Byte).toNat : Int) = ((gbTop.a.toNat : Int) - (1 : Byte).toNat - (0 : Nat)) % 256 ∧
    OperandForm .gbSbcR .gbSbcN gbTop (.gbSbcN 0xFF) 0xFF 1 ∧ 1 = (gbTop.f.getLsbD 4).toNat ∧
    ((0xFF : Byte).toNat : Int) = ((gbTop.a.toNat : Int) - (0xFF : Byte).toNat - (1 : Nat)) % 256 ∧
    OperandForm .gbCpR .gbCpN gbTop (.gbCpR .a) 0xFF 0 ∧
    ((0 : Byte).toNat : Int) = ((gbTop.a.toNat : Int) - (0xFF : Byte).toNat - (0 : Nat)) % 256 :=
  ⟨gbTop_ready, .inl ⟨.b, rfl, by decide, rfl⟩, by decide, .inr ⟨rfl, rfl⟩, by decide, by decide,
    .inl ⟨.a, rfl, by decide, rfl⟩, by decide⟩
theorem witness_GbLogic :
    GbReady (gbMachine gbTop []) gbTop ∧ OperandForm .gbAndR .gbAndN gbTop (.gbAndR .a) 0xFF 0 ∧
    OperandForm .gbXorR .gbXorN gbTop (.gbXorR .a) 0xFF 0 ∧ OperandForm .gbOrR .gbOrN gbTop (.gbOrN 0) 0 1 :=
  ⟨gbTop_ready, .inl ⟨.a, rfl, by decide, rfl⟩, .inl ⟨.a, rfl, by decide, rfl⟩, .inr ⟨rfl, rfl⟩⟩
theorem witness_GbAddToHl : GbReady (gbMachine gbTop []) gbTop := gbTop_ready
theorem witness_GbJumps :
    GbReady (gbMachine gbTop []) gbTop ∧ (False ↔ gbTop.f.getLsbD 7 = false) ∧
    (True ↔ gbTop.f.getLsbD 7 = true) ∧ (False ↔ gbTop.f.getLsbD 4 = false) ∧
    (True ↔ gbTop.f.getLsbD 4 = true) := ⟨gbTop_ready, by decide⟩
theorem witness_GbCallAndReturn : GbReady (gbMachine gbTop []) gbTop := gbTop_ready
theorem witness_GbReturnAfterCall : GbReady (gbMachine gbTop []) gbTop := gbTop_ready
theorem witness_GbHaltsAndInterruptEnable : GbReady (gbMachine gbTop []) gbTop := gbTop_ready
theorem witness_GbBitInstructions :
    GbReady (gbMachine gbTop []) gbTop ∧ Reg8.a ≠ .hlMem ∧ Reg8.hlMem = .hlMem :=
  ⟨gbTop_ready, by decide, rfl⟩
theorem witness_GbPrefixedLookup :
    GbReady (gbMachine gbTop []) gbTop ∧ (0x3F : Byte).toNat < 0x40 ∧ 0x40 ≤ (0x40 : Byte).toNat :=
  ⟨gbTop_ready, by decide⟩
theorem witness_GbCycleCounts :
    GbReady (gbMachine gbTop []) gbTop ∧
    GbReady { gbMachine gbTop [] with gbParams := { cycles := { call := ⟨1, by decide⟩ } } } gbTop ∧
    (∀ i ∈ ([.gbLdRR .hlMem .a, .gbLdRR .a .b, .gbLdRN .hlMem 1, .gbLdPairNn .sp 1, .gbLdiHlA, .gbPush .af,
        .gbPop .af, .gbAddR .hlMem, .gbCpN 1, .gbHalt, .gbAddHl .sp, .gbJp 1, .gbJpCc .nz 1, .gbJpCc .z 1,
        .gbJr 0x80, .gbJrCc .nc 1, .gbJrCc .c 1, .gbCall 1, .gbRet, .gbDi, .gbBit 7 .hlMem,
        .gbRes 0 .a, .gbSet 7 .hlMem] : List Instr), goesOn (exec i (gbMachine gbTop [])) = true) :=
  ⟨gbTop_ready, ⟨rfl, rfl⟩, by decide⟩
theorem witness_TimersAndKeyLatch :
    ((nextOp [HostOp.timerTick]).1 = .timerTick ∧
      C8Ready (c8Machine c8Halted [.timerTick]) c8Halted) ∧
    ((nextOp [HostOp.setKeyboardValue 0x105]).1 = .setKeyboardValue 0x105 ∧
      C8Ready (c8Machine c8Halted [.setKeyboardValue 0x105]) c8Halted ∧
      GbReady (gbMachine gbHalted [.setKeyboardValue 0x105]) gbHalted) := ⟨⟨rfl, rfl, rfl⟩, rfl, ⟨rfl, rfl⟩, rfl, rfl⟩
theorem witness_ProgramLoad :
    (∀ image, (nextOp [HostOp.loadProgram image]).1 = .loadProgram image ∧
      C8Ready (c8Machine C8Block.reset [.loadProgram image]) C8Block.reset ∧
      GbReady (gbMachine GbBlock.reset [.loadProgram image]) GbBlock.reset) ∧
    0x200 + (List.replicate 3584 (0x60 : Byte)).length ≤ 4096 ∧
    0x200 + (List.replicate 3585 (0x60 : Byte)).length > 4096 ∧
    (List.replicate 65536 (0x60 : Byte)).length ≤ 65536 ∧
    (List.replicate 65537 (0x60 : Byte)).length > 65536 :=
  ⟨fun _ => ⟨rfl, ⟨rfl, rfl⟩, rfl, rfl⟩, by rw [List.length_replicate], by rw [List.length_replicate]; decide,
    by rw [List.length_replicate], by rw [List.length_replicate]; decide⟩
theorem witness_NewBlock :
    State.Good { selected with inbox := [.initializeBlock] } ∧
    State.Good { selected with arch := .gb, inbox := [.initializeBlock] } ∧
    (nextOp [HostOp.initializeBlock]).1 = .initializeBlock := ⟨selected_good, selected_good, rfl⟩
theorem witness_ContextOperations :
    (∀ id, (nextOp [HostOp.setEmulationContext id]).1 = .setEmulationContext id) ∧
    (nextOp [HostOp.quitProgram]).1 = .quitProgram ∧ selected.arch = .chip8 ∧
    (gbMachine gbTop []).arch = .gb ∧ selected.chip8.blocks.lookup 0 ≠ none ∧
    selected.chip8.blocks.lookup 1 = none ∧ (gbMachine gbTop []).gb.blocks.lookup 0 ≠ none ∧
    (gbMachine gbTop []).gb.blocks.lookup 1 = none :=
  ⟨fun _ => rfl, rfl, rfl, rfl, by decide, rfl, by decide, rfl⟩
theorem witness_RefusedWithoutContext :
    State.reset.arch = .chip8 ∧ State.reset.chip8.active = none ∧ State.reset.gb.active = none ∧
    AboutToTick State.reset ∧ (nextOp [HostOp.loadProgram none]).1 = .loadProgram none ∧
    (nextOp [HostOp.setKeyboardValue 1]).1 = .setKeyboardValue 1 ∧
    (nextOp [HostOp.timerTick]).1 = .timerTick := ⟨rfl, rfl, rfl, rfl, rfl, rfl, rfl⟩

end Sys2Proof.Tests
end

namespace Sys2Proof.Machine

/-! # What the state operations keep good (10_state R36) -/

/-! ## The status registers -/

theorem Status.reset_good : Status.reset.Good := by
  simp [Status.Good, Status.reset]

/-- A halt with a fault or a halt instruction leaves a good status, whatever it was before. -/
theorem Status.good_halt (st : Status) {c : HaltCause} (info : Word) (hnone : c ≠ .none)
    (hinvalid : c ≠ .invalidOpcode) : (st.halt c info).Good := by
  simp [Status.Good, hnone, hinvalid]

/-- The halt of a failed lookup leaves the sentinel. -/
theorem Status.good_invalid (st : Status) (raw : Word) : (st.invalid raw).Good := by
  simp [Status.Good]

/-- Recording an opcode keeps a running status good: it has no cause, so no sentinel is asked for. -/
theorem Status.Good.record {st : Status} (h : st.Good) (hrun : st.run = .running) (op : Word) :
    (st.record op).Good := by
  obtain ⟨hhalted, -⟩ := h
  have hcause : st.haltCause = .none := by simpa [hrun] using hhalted
  simp [Status.Good, hrun, hcause]

/-! ## CHIP-8 blocks -/

theorem C8Block.reset_good : C8Block.reset.Good :=
  ⟨by decide, Memory.wf_nil _, Status.reset_good⟩

theorem C8Block.Good.withStatus {b : C8Block} (h : b.Good) {st : Status} (hst : st.Good) :
    C8Block.Good { b with status := st } :=
  let ⟨hsp, hmem, _⟩ := h
  ⟨hsp, hmem, hst⟩

theorem C8Block.Good.readFault {b : C8Block} (h : b.Good) : b.readFault.Good :=
  h.withStatus (Status.good_halt _ _ (by decide) (by decide))

theorem C8Block.Good.noEntry {b : C8Block} (h : b.Good) (op : Word) : (b.noEntry op).Good :=
  h.withStatus (Status.good_invalid _ op)

theorem C8Block.Good.dispatched {b : C8Block} (h : b.Good) (hrun : b.status.run = .running) (op : Word) :
    (b.dispatched op).Good :=
  let ⟨_, _, hstatus⟩ := h
  h.withStatus (hstatus.record hrun op)

theorem C8Block.Good.withMem {b : C8Block} (h : b.Good) {m : Memory} (hm : m.wf Config.c8MemSize) :
    C8Block.Good { b with mem := m } :=
  let ⟨hsp, _, hstatus⟩ := h
  ⟨hsp, hm, hstatus⟩

/-- The image of `LoadProgram` and the font lie inside CHIP-8 memory. -/
theorem C8Block.Good.load {b : C8Block} (h : b.Good) (image : Option (List Byte)) :
    (b.load image).1.Good := by
  cases image with
  | none => exact h
  | some bytes =>
    unfold C8Block.load
    by_cases hfit : Config.c8LoadBase + bytes.length > Config.c8MemSize
    · simpa [hfit] using h
    · obtain ⟨-, hmem, -⟩ := id h
      have hfont : (b.mem.writeBytes Config.c8FontBase c8Font).wf Config.c8MemSize :=
        Memory.wf_writeBytes c8Font hmem (by decide)
      simpa [hfit] using h.withMem (Memory.wf_writeBytes bytes hfont (Nat.le_of_not_lt hfit))

/-! ## GB blocks -/

/-- The block made from a good `GB_RESET` is good. -/
theorem GbBlock.resetWith_good {r : GbReset} (h : GbReset.Good r) : (GbBlock.resetWith r).Good :=
  let ⟨hf, hmem⟩ := h
  ⟨hf, hmem, Status.reset_good⟩

theorem GbReset.default_good : GbReset.Good Config.gbParams.reset := ⟨by decide, Memory.wf_nil _⟩

/-- The mask of a write to `F` leaves the low nibble 0 (10_state R28). -/
theorem and_F0_and_0F (v : Byte) : v &&& 0xF0 &&& 0x0F = 0 := by
  revert v
  decide

/-- A masked write of `F` keeps a block good, whatever registers change with it. -/
theorem GbBlock.Good.of_masked {g g' : GbBlock} (h : g.Good) {v : Byte} (hf : g'.f = v &&& 0xF0)
    (hmem : g'.mem = g.mem) (hstatus : g'.status = g.status) : g'.Good :=
  let ⟨_, hmem₀, hstatus₀⟩ := h
  ⟨hf ▸ and_F0_and_0F v, hmem ▸ hmem₀, hstatus ▸ hstatus₀⟩

theorem GbBlock.Good.writeF {g : GbBlock} (h : g.Good) (v : Byte) : (g.writeF v).Good :=
  h.of_masked rfl rfl rfl

/-- `PC` is no part of what is good. -/
theorem GbBlock.Good.advance {g : GbBlock} (h : g.Good) (n : Nat) : (g.advance n).Good := h

theorem GbBlock.Good.withMem {g : GbBlock} (h : g.Good) {m : Memory} (hm : m.wf Config.gbMemSize) :
    GbBlock.Good { g with mem := m } :=
  let ⟨hf, _, hstatus⟩ := h
  ⟨hf, hm, hstatus⟩

theorem GbBlock.Good.memWrite {g : GbBlock} (h : g.Good) (a : Word) (v : Byte) : (g.memWrite a v).Good :=
  let ⟨_, hmem, _⟩ := h
  h.withMem (Memory.wf_write v hmem a.isLt)

theorem GbBlock.Good.withStatus {g : GbBlock} (h : g.Good) {st : Status} (hst : st.Good) :
    GbBlock.Good { g with status := st } :=
  let ⟨hf, hmem, _⟩ := h
  ⟨hf, hmem, hst⟩

theorem GbBlock.Good.noEntry {g : GbBlock} (h : g.Good) (op : Word) : (g.noEntry op).Good :=
  (h.advance 1).withStatus (Status.good_invalid _ op)

theorem GbBlock.Good.dispatched {g : GbBlock} (h : g.Good) (hrun : g.status.run = .running) (op : Word) :
    (g.dispatched op).Good :=
  let ⟨_, _, hstatus⟩ := h
  (h.advance 1).withStatus (hstatus.record hrun op)

theorem GbBlock.Good.push16 {g : GbBlock} (h : g.Good) (v : Word) : (g.push16 v).Good := by
  have hhi : (g.memWrite (g.sp - 1) (hiByte v)).Good := h.memWrite _ _
  have hlo : ((g.memWrite (g.sp - 1) (hiByte v)).memWrite (g.sp - 1 - 1) (loByte v)).Good := hhi.memWrite _ _
  exact hlo

theorem GbBlock.Good.setR {g : GbBlock} (h : g.Good) (r : Reg8) (v : Byte) : (g.setR r v).Good := by
  cases r with
  | hlMem => exact h.memWrite g.hl v
  | _ => exact h

theorem GbBlock.Good.setStackPair {g : GbBlock} (h : g.Good) (p : StackPair) (v : Word) :
    (g.setStackPair p v).Good := by
  cases p with
  | af => exact h.of_masked rfl rfl rfl
  | _ => exact h

theorem GbBlock.Good.load {g : GbBlock} (h : g.Good) (image : Option (List Byte)) :
    (g.load image).1.Good := by
  cases image with
  | none => exact h
  | some bytes =>
    unfold GbBlock.load
    by_cases hfit : Config.gbLoadBase + bytes.length > Config.gbMemSize
    · simpa [hfit] using h
    · obtain ⟨-, hmem, -⟩ := id h
      simpa [hfit] using h.withMem (Memory.wf_writeBytes bytes hmem (Nat.le_of_not_lt hfit))

/-! ## The reset state -/

theorem Engine.reset_good {β : Type} {good : β → Prop} {block : β} (h : good block) :
    (Engine.reset block).Good good := by
  simp [Engine.Good, Engine.reset, h]

/-- Settles O18: each core has one good block, and `GB_RESET` has its defaults. -/
theorem resetIsGood : Obligations.ResetIsGood :=
  ⟨Engine.reset_good C8Block.reset_good, Engine.reset_good (GbBlock.resetWith_good GbReset.default_good),
    GbReset.default_good⟩

theorem Display.cell_replicate_zero (px py : Nat) :
    Display.cell (Vector.replicate 32 0) px py = false := by
  simp [Display.cell]

theorem C8Block.getV_reset (x : BitVec 4) : C8Block.reset.getV x = 0 := by
  simp [C8Block.getV, C8Block.reset]

/-- Settles O19: the blocks are `C8Block.reset` and `GbBlock.reset`, whose memory lists no byte. -/
theorem resetValues : Obligations.ResetValues := by
  refine ⟨⟨C8Block.reset, rfl, Memory.read_nil, C8Block.getV_reset, rfl, rfl, rfl, fun k hk => ?_, rfl, rfl,
      Display.cell_replicate_zero, rfl, rfl⟩,
    ⟨GbBlock.reset, rfl, Memory.read_nil, rfl, rfl, rfl, rfl, rfl, rfl, rfl, rfl, rfl, rfl, rfl, rfl, rfl⟩,
    rfl, rfl, rfl, rfl⟩
  simp [C8Block.reset, hk]

end Sys2Proof.Machine

namespace Sys2Proof.Machine

/-! # What an instruction can do to the machine and to the active block -/

theorem State.runC8_put {s t : State} {f : C8Block → Except Raise C8Block} (h : s.runC8 f = .next t) :
    ∃ b b' r, C8Ready s b ∧ t = (s.putC8 b').answer r := by
  obtain ⟨b, hb, ⟨b', -, rfl⟩ | ⟨r, -, rfl⟩⟩ := State.runC8_next h
  · exact ⟨b, b', _, hb, rfl⟩
  · exact ⟨b, _, _, hb, rfl⟩

theorem State.runGb_put {s t : State} {f : GbBlock → GbBlock × Nat} (h : s.runGb f = .next t) :
    ∃ g g' r, GbReady s g ∧ t = (s.putGb g').answer r := by
  obtain ⟨g, hg, rfl⟩ := State.runGb_next h
  exact ⟨g, _, _, hg, rfl⟩

/-- An instruction that answers a next state replaced the active block of its core and gave a reply; a CHIP-8
instruction may also have drawn a byte. -/
theorem exec_next {i : Instr} {s t : State} (h : exec i s = .next t) :
    (archOf i = .chip8 ∧ ∃ b b' d r, C8Ready s b ∧ t = (State.putC8 { s with draws := d } b').answer r) ∨
      (archOf i = .gb ∧ ∃ g g' r, GbReady s g ∧ t = (s.putGb g').answer r) := by
  unfold exec at h
  cases i with
  | c8Rnd x kk =>
    obtain ⟨b, b', r, hb, ht⟩ := State.runC8_put h
    exact .inl ⟨rfl, b, b', _, r, hb, ht⟩
  | c8Cls | c8Ret | c8Jp _ | c8Call _ | c8SeByte _ _ | c8SneByte _ _ | c8SeReg _ _ | c8LdByte _ _
  | c8AddByte _ _ | c8LdReg _ _ | c8Or _ _ | c8And _ _ | c8Xor _ _ | c8Add _ _ | c8Sub _ _ | c8Shr _ _
  | c8Subn _ _ | c8Shl _ _ | c8SneReg _ _ | c8LdI _ | c8JpV0 _ | c8Drw _ _ _ | c8Skp _ | c8Sknp _
  | c8LdVxDt _ | c8LdVxK _ | c8LdDtVx _ | c8LdStVx _ | c8AddI _ | c8LdF _ | c8LdB _ | c8StoreRegs _
  | c8LoadRegs _ =>
    obtain ⟨b, b', r, hb, ht⟩ := State.runC8_put h
    exact .inl ⟨rfl, b, b', s.draws, r, hb, ht⟩
  | _ => exact .inr ⟨rfl, State.runGb_put h⟩

theorem archOf_of_c8Ready {i : Instr} {s t : State} {b : C8Block} (hb : C8Ready s b)
    (h : exec i s = .next t) : archOf i = .chip8 := by
  obtain ⟨harch, -⟩ | ⟨-, g, -, -, hg, -⟩ := exec_next h
  · exact harch
  · exact absurd (hb.1.symm.trans hg.1) (by decide)

theorem archOf_of_gbReady {i : Instr} {s t : State} {g : GbBlock} (hg : GbReady s g)
    (h : exec i s = .next t) : archOf i = .gb := by
  obtain ⟨-, b, -, -, -, hb, -⟩ | ⟨harch, -⟩ := exec_next h
  · exact absurd (hb.1.symm.trans hg.1) (by decide)
  · exact harch

/-! ## The active block after a handler's run -/

section C8Run

variable {s t : State} {b b' : C8Block}

/-- The active block is what the handler gives, or the old block halted with what it raises. -/
theorem State.runC8_block {f : C8Block → Except Raise C8Block} (hb : C8Ready s b) (h : s.runC8 f = .next t)
    (hb' : C8Ready t b') :
    f b = .ok b' ∨ ∃ r, f b = .error r ∧ b' = b.halt (raiseCause r) (raiseInfo r) := by
  cases hf : f b with
  | ok c =>
    obtain ⟨_, hnext, hdone, -⟩ := State.runC8_ok hb hf
    obtain rfl := Host.Outcome.next.inj (hnext.symm.trans h)
    exact .inl (congrArg _ (Option.some.inj (hdone.symm.trans hb'.2)))
  | error r =>
    obtain ⟨_, hnext, hdone, -⟩ := State.runC8_raise hb hf
    obtain rfl := Host.Outcome.next.inj (hnext.symm.trans h)
    exact .inr ⟨r, rfl, (Option.some.inj (hdone.symm.trans hb'.2)).symm⟩

/-- A handler that never raises. -/
theorem State.runC8_pure {f : C8Block → C8Block} (hb : C8Ready s b)
    (h : s.runC8 (fun b => .ok (f b)) = .next t) (hb' : C8Ready t b') : b' = f b := by
  obtain hok | ⟨r, hraise, -⟩ := State.runC8_block hb h hb'
  · exact (Except.ok.inj hok).symm
  · cases hraise

/-- A handler that checks the n bytes at `I` first: they lie in memory, or the session halts. -/
theorem State.runC8_guarded {n : Nat} {f : C8Block → C8Block} (hb : C8Ready s b)
    (h : (s.runC8 fun b => do let b ← c8Guard b.i n b; .ok (f b)) = .next t) (hb' : C8Ready t b') :
    (b' = f b ∧ (n = 0 ∨ b.i.toNat + n ≤ 4096)) ∨ ∃ info, b' = b.halt .busFault info := by
  have hrun := State.runC8_block hb h hb'
  by_cases hin : n = 0 ∨ b.i.toNat + n ≤ 4096
  · rw [c8Guard_ok b hin] at hrun
    obtain hok | ⟨r, hraise, -⟩ := hrun
    · exact .inl ⟨(Except.ok.inj hok).symm, hin⟩
    · cases hraise
  · obtain ⟨hn, hlt⟩ := not_or.1 hin
    rw [c8Guard_raise b hn (Nat.lt_of_not_le hlt)] at hrun
    obtain hok | ⟨r, hraise, rfl⟩ := hrun
    · cases hok
    · cases hraise
      exact .inr ⟨_, rfl⟩

/-- `CALL` pushes onto a stack of fewer than 16 slots in use, or halts (R142, 60_exceptions R283). -/
theorem exec_c8Call_block {nnn : BitVec 12} (hb : C8Ready s b) (h : exec (.c8Call nnn) s = .next t)
    (hb' : C8Ready t b') :
    (∃ hsp : b.sp.toNat < 16,
      b' = { b with stack := b.stack.set b.sp.toNat b.pc hsp, sp := b.sp + 1, pc := nnn.setWidth 16 }) ∨
      ∃ info, b' = b.halt .stackFault info := by
  have hrun := State.runC8_block hb h hb'
  by_cases hsp : b.sp.toNat < 16
  · rw [dif_pos hsp] at hrun
    obtain hok | ⟨r, hraise, -⟩ := hrun
    · exact .inl ⟨hsp, (Except.ok.inj hok).symm⟩
    · cases hraise
  · rw [dif_neg hsp] at hrun
    obtain hok | ⟨r, hraise, rfl⟩ := hrun
    · cases hok
    · cases hraise
      exact .inr ⟨_, rfl⟩

/-- `RET` pops a stack of 1 to 16 slots in use, or halts (R140, 60_exceptions R283). -/
theorem exec_c8Ret_block (hb : C8Ready s b) (h : exec .c8Ret s = .next t) (hb' : C8Ready t b') :
    (0 < b.sp.toNat ∧ b.sp.toNat ≤ 16 ∧ ∃ pc, b' = { b with sp := b.sp - 1, pc := pc }) ∨
      ∃ info, b' = b.halt .stackFault info := by
  have hrun := State.runC8_block hb h hb'
  by_cases hsp : 0 < b.sp.toNat ∧ b.sp.toNat ≤ 16
  · rw [dif_pos hsp] at hrun
    obtain hok | ⟨r, hraise, -⟩ := hrun
    · exact .inl ⟨hsp.1, hsp.2, _, (Except.ok.inj hok).symm⟩
    · cases hraise
  · rw [dif_neg hsp] at hrun
    obtain hok | ⟨r, hraise, rfl⟩ := hrun
    · cases hok
    · cases hraise
      exact .inr ⟨_, rfl⟩

/-- `LD Vx,K` goes back onto itself or loads the key (R185). -/
theorem exec_c8LdVxK_block {x : BitVec 4} (hb : C8Ready s b) (h : exec (.c8LdVxK x) s = .next t)
    (hb' : C8Ready t b') : b' = { b with pc := b.pc - 2 } ∨ b' = b.setV x b.key := by
  have hrun := State.runC8_block hb h hb'
  by_cases hkey : b.key = Config.keyNone
  · rw [if_pos hkey] at hrun
    obtain hok | ⟨r, hraise, -⟩ := hrun
    · exact .inl (Except.ok.inj hok).symm
    · cases hraise
  · rw [if_neg hkey] at hrun
    obtain hok | ⟨r, hraise, -⟩ := hrun
    · exact .inr (Except.ok.inj hok).symm
    · cases hraise

end C8Run

/-- The active block is what the GB handler gives. -/
theorem State.runGb_block {s t : State} {g g' : GbBlock} {f : GbBlock → GbBlock × Nat} (hg : GbReady s g)
    (h : s.runGb f = .next t) (hg' : GbReady t g') : g' = (f g).1 := by
  obtain ⟨_, hnext, hdone, -⟩ := State.runGb_done f hg
  obtain rfl := Host.Outcome.next.inj (hnext.symm.trans h)
  exact Option.some.inj (hg'.2.symm.trans hdone)

end Sys2Proof.Machine

namespace Sys2Proof.Machine

/-! # What each CHIP-8 instruction may write -/

/-- A field holds the same value in two blocks, memory the same list. -/
def C8Field.Kept (k : C8Field) (b b' : C8Block) : Prop :=
  match k with
  | .mem => b'.mem = b.mem
  | k => k.same b b'

/-- Every field but those listed is kept: `C8Frame` with memory compared as the list it is held in. -/
def C8Keeps (changed : List C8Field) (b b' : C8Block) : Prop := ∀ k, k ∈ changed ∨ k.Kept b b'

/-- The tie to the frames in which claims are made. -/
theorem C8Keeps.frame {l : List C8Field} {b b' : C8Block} (h : C8Keeps l b b') : C8Frame l b b' := by
  intro k hk
  have hkept := (h k).resolve_left hk
  cases k with
  | mem => exact fun a => congrArg (Memory.read · a) hkept
  | _ => exact hkept

/-- The fields that an instruction may write when its handler does not raise. -/
def c8Writes (i : Instr) : List C8Field :=
  match i with
  | .c8Cls => [.disp]
  | .c8Ret => [.pc, .sp]
  | .c8Call _ => [.pc, .sp, .stack]
  | .c8Jp _ | .c8JpV0 _ | .c8SeByte _ _ | .c8SneByte _ _ | .c8SeReg _ _ | .c8SneReg _ _ | .c8Skp _
  | .c8Sknp _ => [.pc]
  | .c8LdByte _ _ | .c8AddByte _ _ | .c8LdReg _ _ | .c8Or _ _ | .c8And _ _ | .c8Xor _ _ | .c8Add _ _
  | .c8Sub _ _ | .c8Shr _ _ | .c8Subn _ _ | .c8Shl _ _ | .c8Rnd _ _ | .c8LdVxDt _ | .c8LoadRegs _ => [.v]
  | .c8LdI _ | .c8AddI _ | .c8LdF _ => [.i]
  | .c8Drw _ _ _ => [.v, .disp]
  | .c8LdVxK _ => [.v, .pc]
  | .c8LdDtVx _ => [.dt]
  | .c8LdStVx _ => [.st]
  | .c8LdB _ | .c8StoreRegs _ => [.mem]
  | _ => []

/-- The cause with which an instruction's handler may halt the session, `none` if it never raises. -/
def c8Cause (i : Instr) : HaltCause :=
  match i with
  | .c8Drw _ _ _ | .c8LdB _ | .c8StoreRegs _ | .c8LoadRegs _ => .busFault
  | .c8Call _ | .c8Ret => .stackFault
  | _ => .none

/-- The registers `V[j]` that an instruction may write. -/
def c8WritesV (i : Instr) (j : BitVec 4) : Prop :=
  match i with
  | .c8LdByte x _ | .c8AddByte x _ | .c8LdReg x _ | .c8Or x _ | .c8And x _ | .c8Xor x _ | .c8Rnd x _
  | .c8LdVxDt x | .c8LdVxK x => j = x
  | .c8Add x _ | .c8Sub x _ | .c8Shr x _ | .c8Subn x _ | .c8Shl x _ => j = x ∨ j = 15
  | .c8Drw _ _ _ => j = 15
  | .c8LoadRegs x => j ≤ x
  | _ => False

theorem C8Keeps.loadRegs (b : C8Block) (n : Nat) : C8Keeps [.v] b (loadRegs b n) := by
  unfold Machine.loadRegs
  induction n with
  | zero => exact fun k => .inr (by cases k <;> simp [C8Field.Kept, C8Field.same])
  | succ n ih =>
    rw [List.range_succ, List.foldl_append, List.foldl_cons, List.foldl_nil]
    intro k
    have hk := ih k
    cases k <;> simp_all [C8Field.Kept, C8Field.same]

theorem C8Keeps.skipIf (b : C8Block) (c : Bool) : C8Keeps [.pc] b (b.skipIf c) := by
  intro k
  cases c <;> cases k <;> simp [C8Block.skipIf, C8Field.Kept, C8Field.same]

section Effect

variable {i : Instr} {s t : State} {b b' : C8Block}

/-- What an instruction does to the active block: it writes no field that its row of `c8Writes` leaves out, or
it halts the session with its cause and writes nothing else (40_dispatch_tick R117, R118). -/
theorem exec_c8_effect (hb : C8Ready s b) (h : exec i s = .next t) (hb' : C8Ready t b') :
    C8Keeps (c8Writes i) b b' ∨ (c8Cause i ≠ .none ∧ ∃ info, b' = b.halt (c8Cause i) info) := by
  have hrun := h
  unfold exec at hrun
  cases i with
  | c8LdByte _ _ | c8AddByte _ _ | c8LdReg _ _ | c8Or _ _ | c8And _ _ | c8Xor _ _ | c8Add _ _ | c8Sub _ _
  | c8Shr _ _ | c8Subn _ _ | c8Shl _ _ | c8LdVxDt _ | c8Jp _ | c8JpV0 _ | c8LdI _ | c8AddI _ | c8LdF _
  | c8LdDtVx _ | c8LdStVx _ | c8Cls =>
    obtain rfl := State.runC8_pure hb hrun hb'
    exact .inl fun k => by cases k <;> simp [c8Writes, C8Field.Kept, C8Field.same]
  | c8Rnd _ _ =>
    obtain rfl := State.runC8_pure (show C8Ready { s with draws := s.draws + 1 } b from hb) hrun hb'
    exact .inl fun k => by cases k <;> simp [c8Writes, C8Field.Kept, C8Field.same]
  | c8SeByte _ _ | c8SneByte _ _ | c8SeReg _ _ | c8SneReg _ _ | c8Skp _ | c8Sknp _ =>
    obtain rfl := State.runC8_pure hb hrun hb'
    exact .inl (C8Keeps.skipIf b _)
  | c8LdVxK _ =>
    obtain rfl | rfl := exec_c8LdVxK_block hb h hb'
    · exact .inl fun k => by cases k <;> simp [c8Writes, C8Field.Kept, C8Field.same]
    · exact .inl fun k => by cases k <;> simp [c8Writes, C8Field.Kept, C8Field.same]
  | c8Drw _ _ _ | c8LdB _ | c8StoreRegs _ =>
    obtain ⟨rfl, -⟩ | hhalt := State.runC8_guarded hb hrun hb'
    · exact .inl fun k => by cases k <;> simp [c8Writes, C8Field.Kept, C8Field.same]
    · exact .inr ⟨by simp [c8Cause], hhalt⟩
  | c8LoadRegs _ =>
    obtain ⟨rfl, -⟩ | hhalt := State.runC8_guarded hb hrun hb'
    · exact .inl (C8Keeps.loadRegs b _)
    · exact .inr ⟨by simp [c8Cause], hhalt⟩
  | c8Call _ =>
    obtain ⟨_, rfl⟩ | hhalt := exec_c8Call_block hb h hb'
    · exact .inl fun k => by cases k <;> simp [c8Writes, C8Field.Kept, C8Field.same]
    · exact .inr ⟨by simp [c8Cause], hhalt⟩
  | c8Ret =>
    obtain ⟨-, -, _, rfl⟩ | hhalt := exec_c8Ret_block hb h hb'
    · exact .inl fun k => by cases k <;> simp [c8Writes, C8Field.Kept, C8Field.same]
    · exact .inr ⟨by simp [c8Cause], hhalt⟩
  | _ => exact absurd (archOf_of_c8Ready hb h) (by simp [archOf])

/-- Every field but the status is kept or named in the instruction's row, whether or not it halts. -/
theorem exec_c8_kept (hb : C8Ready s b) (h : exec i s = .next t) (hb' : C8Ready t b') (k : C8Field)
    (hk : k ≠ .status) : k.Kept b b' ∨ k ∈ c8Writes i := by
  obtain hkeeps | ⟨-, info, rfl⟩ := exec_c8_effect hb h hb'
  · exact (hkeeps k).symm
  · left
    cases k with
    | status => exact absurd rfl hk
    | _ => rfl

theorem status_not_mem_c8Writes (i : Instr) : C8Field.status ∉ c8Writes i := by
  cases i <;> simp [c8Writes]

theorem key_not_mem_c8Writes (i : Instr) : C8Field.key ∉ c8Writes i := by
  cases i <;> simp [c8Writes]

theorem exec_c8_status (hb : C8Ready s b) (h : exec i s = .next t) (hb' : C8Ready t b') :
    b'.status = b.status ∨
      (c8Cause i ≠ .none ∧ ∃ info, b'.status = b.status.halt (c8Cause i) info) := by
  obtain hkeeps | ⟨hcause, info, rfl⟩ := exec_c8_effect hb h hb'
  · exact .inl ((hkeeps .status).resolve_left (status_not_mem_c8Writes i))
  · exact .inr ⟨hcause, info, rfl⟩

/-! ## The registers V0 to VF -/

theorem C8Block.getV_congr {c : C8Block} (h : c.v = b.v) (j : BitVec 4) : c.getV j = b.getV j := by
  simp only [C8Block.getV, h]

/-- An instruction writes no register but those that `c8WritesV` names. -/
theorem exec_c8_getV (hb : C8Ready s b) (h : exec i s = .next t) (hb' : C8Ready t b') (j : BitVec 4) :
    b'.getV j = b.getV j ∨ c8WritesV i j := by
  have hrun := h
  unfold exec at hrun
  cases i with
  | c8LdByte x _ | c8AddByte x _ | c8LdReg x _ | c8Or x _ | c8And x _ | c8Xor x _ | c8LdVxDt x =>
    obtain rfl := State.runC8_pure hb hrun hb'
    by_cases hj : j = x
    · exact .inr hj
    · exact .inl (by rw [C8Block.getV_setV, if_neg hj])
  | c8Rnd x _ =>
    obtain rfl := State.runC8_pure (show C8Ready { s with draws := s.draws + 1 } b from hb) hrun hb'
    by_cases hj : j = x
    · exact .inr hj
    · exact .inl (by rw [C8Block.getV_setV, if_neg hj])
  | c8Add x _ | c8Sub x _ | c8Shr x _ | c8Subn x _ | c8Shl x _ =>
    obtain rfl := State.runC8_pure hb hrun hb'
    by_cases hj : j = x ∨ j = 15
    · exact .inr hj
    · obtain ⟨hx, hflag⟩ := not_or.1 hj
      exact .inl (by rw [C8Block.getV_setVWithFlag, if_neg hflag, if_neg hx])
  | c8LdVxK x =>
    obtain rfl | rfl := exec_c8LdVxK_block hb h hb'
    · exact .inl rfl
    · by_cases hj : j = x
      · exact .inr hj
      · exact .inl (by rw [C8Block.getV_setV, if_neg hj])
  | c8Drw _ _ _ =>
    obtain ⟨rfl, -⟩ | ⟨_, rfl⟩ := State.runC8_guarded hb hrun hb'
    · by_cases hj : j = 15
      · exact .inr hj
      · left
        rw [C8Block.getV_setV, if_neg hj]
        rfl
    · exact .inl rfl
  | c8LoadRegs x =>
    obtain ⟨rfl, -⟩ | ⟨_, rfl⟩ := State.runC8_guarded hb hrun hb'
    · by_cases hj : j.toNat < x.toNat + 1
      · exact .inr (BitVec.le_def.2 (Nat.le_of_lt_succ hj))
      · exact .inl (by rw [loadRegs_getV b _ (by omega), if_neg hj])
    · exact .inl rfl
  | _ =>
    have hv := (exec_c8_kept hb h hb' .v (by decide)).resolve_right (by simp [c8Writes])
    exact .inl (C8Block.getV_congr hv j)

end Effect

end Sys2Proof.Machine

namespace Sys2Proof.Machine

/-! # The rows of the CHIP-8 tables, read by column -/

section Columns

variable {i : Instr}

theorem pc_mem_c8Writes (h : .pc ∈ c8Writes i) :
    (∃ n, i ∈ [.c8Jp n, .c8Call n, .c8JpV0 n]) ∨ i = .c8Ret ∨
      (∃ x kk, i ∈ [.c8SeByte x kk, .c8SneByte x kk]) ∨ (∃ x y, i ∈ [.c8SeReg x y, .c8SneReg x y]) ∨
      ∃ x, i ∈ [.c8Skp x, .c8Sknp x, .c8LdVxK x] := by
  cases i <;> simp [c8Writes] at h ⊢

theorem i_mem_c8Writes (h : .i ∈ c8Writes i) :
    (∃ n, i = .c8LdI n) ∨ (∃ x, i = .c8AddI x) ∨ ∃ x, i = .c8LdF x := by
  cases i <;> simp [c8Writes] at h ⊢

theorem sp_mem_c8Writes (h : .sp ∈ c8Writes i) : (∃ n, i = .c8Call n) ∨ i = .c8Ret := by
  cases i <;> simp [c8Writes] at h ⊢

theorem stack_mem_c8Writes (h : .stack ∈ c8Writes i) : ∃ n, i = .c8Call n := by
  cases i <;> simp [c8Writes] at h ⊢

theorem dt_mem_c8Writes (h : .dt ∈ c8Writes i) : ∃ x, i = .c8LdDtVx x := by
  cases i <;> simp [c8Writes] at h ⊢

theorem st_mem_c8Writes (h : .st ∈ c8Writes i) : ∃ x, i = .c8LdStVx x := by
  cases i <;> simp [c8Writes] at h ⊢

theorem disp_mem_c8Writes (h : .disp ∈ c8Writes i) : i = .c8Cls ∨ ∃ x y n, i = .c8Drw x y n := by
  cases i <;> simp [c8Writes] at h ⊢

theorem mem_mem_c8Writes (h : .mem ∈ c8Writes i) : (∃ x, i = .c8LdB x) ∨ ∃ x, i = .c8StoreRegs x := by
  cases i <;> simp [c8Writes] at h ⊢

theorem c8WritesV_cases {j : BitVec 4} (h : c8WritesV i j) :
    (∃ kk, i ∈ [.c8LdByte j kk, .c8AddByte j kk, .c8Rnd j kk]) ∨
      (∃ y, i ∈ [.c8LdReg j y, .c8Or j y, .c8And j y, .c8Xor j y, .c8Add j y, .c8Sub j y, .c8Shr j y,
        .c8Subn j y, .c8Shl j y]) ∨
      i ∈ [.c8LdVxDt j, .c8LdVxK j] ∨ (∃ x, i = .c8LoadRegs x ∧ j ≤ x) ∨
      j = 15 ∧ ((∃ x y, i ∈ [.c8Add x y, .c8Sub x y, .c8Shr x y, .c8Subn x y, .c8Shl x y]) ∨
        ∃ x y n, i = .c8Drw x y n) := by
  cases i <;> simp_all [c8WritesV, eq_comm]

theorem c8Cause_cases (h : c8Cause i ≠ .none) :
    (c8Cause i = .busFault ∧
        ((∃ x y n, i = .c8Drw x y n) ∨ ∃ x, i ∈ [.c8LdB x, .c8StoreRegs x, .c8LoadRegs x])) ∨
      (c8Cause i = .stackFault ∧ ((∃ n, i = .c8Call n) ∨ i = .c8Ret)) := by
  cases i <;> simp [c8Cause] at h ⊢

end Columns

/-- Settles O21: every clause reads one column of `c8Writes`, `c8WritesV` or `c8Cause`. -/
theorem c8WritersOfEachField : Obligations.C8WritersOfEachField := by
  intro i s t b b' hb h hb'
  have hkept := exec_c8_kept hb h hb'
  have hstatus := exec_c8_status hb h hb'
  refine ⟨fun j => (exec_c8_getV hb h hb' j).imp_right c8WritesV_cases,
    (hkept .pc (by decide)).imp_right pc_mem_c8Writes,
    (hkept .i (by decide)).imp_right i_mem_c8Writes,
    (hkept .sp (by decide)).imp_right sp_mem_c8Writes,
    (hkept .stack (by decide)).imp_right stack_mem_c8Writes,
    (hkept .dt (by decide)).imp_right dt_mem_c8Writes,
    (hkept .st (by decide)).imp_right st_mem_c8Writes,
    (hkept .disp (by decide)).imp_right disp_mem_c8Writes,
    (hkept .mem (by decide)).imp_right mem_mem_c8Writes,
    (hkept .key (by decide)).resolve_right (key_not_mem_c8Writes i), ?_, ?_⟩
  · obtain hsame | ⟨-, info, hhalt⟩ := hstatus
    · rw [hsame]
    · rw [hhalt, Status.halt_lastInstruction]
  · refine hstatus.imp_right fun ⟨hcause, info, hhalt⟩ => ?_
    rw [hhalt, Status.halt_haltCause]
    exact c8Cause_cases hcause

end Sys2Proof.Machine

namespace Sys2Proof.Machine

/-! # What each GB instruction may write -/

/-- A field holds the same value in two blocks, memory the same list. -/
def GbField.Kept (k : GbField) (g g' : GbBlock) : Prop :=
  match k with
  | .mem => g'.mem = g.mem
  | k => k.same g g'

/-- Every field but those listed is kept: `GbFrame` with memory compared as the list it is held in. -/
def GbKeeps (changed : List GbField) (g g' : GbBlock) : Prop := ∀ k, k ∈ changed ∨ k.Kept g g'

/-- The tie to the frames in which claims are made. -/
theorem GbKeeps.frame {l : List GbField} {g g' : GbBlock} (h : GbKeeps l g g') : GbFrame l g g' := by
  intro k hk
  have hkept := (h k).resolve_left hk
  cases k with
  | mem => exact fun x => congrArg (Memory.read · x) hkept
  | _ => exact hkept

/-- The fields of the row of the CB table that a sub-opcode selects: `BIT` writes the flags, `RES` and `SET`
their operand, and an unmatched sub-opcode halts (47_gb_cb R270 to R273). -/
def cbWrites (sub : Byte) : List GbField :=
  if sub.toNat < 0x40 then [.status]
  else if sub.toNat < 0x80 then [.f]
  else [fieldOfReg (reg8Of (BitVec.ofNat 3 sub.toNat))]

/-- The fields that an instruction may write, its operand bytes read: `PC` is named for the transfers only. -/
def gbWrites (i : Instr) : List GbField :=
  match i with
  | .gbStop | .gbHalt => [.status]
  | .gbDi | .gbEi => [.ime]
  | .gbPrefixCb sub => cbWrites sub
  | .gbJp _ | .gbJr _ | .gbJpCc _ _ | .gbJrCc _ _ => [.pc]
  | .gbCall _ => [.mem, .sp, .pc]
  | .gbRet => [.sp, .pc]
  | .gbLdBcA | .gbLdDeA => [.mem]
  | .gbLdiHlA | .gbLddHlA => [.mem, .h, .l]
  | .gbLdABc | .gbLdADe => [.a]
  | .gbLdiAHl | .gbLddAHl => [.a, .h, .l]
  | .gbAddN _ | .gbAdcN _ | .gbSubN _ | .gbSbcN _ | .gbAndN _ | .gbXorN _ | .gbOrN _
  | .gbAddR _ | .gbAdcR _ | .gbSubR _ | .gbSbcR _ | .gbAndR _ | .gbXorR _ | .gbOrR _ => [.a, .f]
  | .gbCpN _ | .gbCpR _ | .gbBit _ _ => [.f]
  | .gbAddHl _ => [.h, .l, .f]
  | .gbLdPairNn p _ => fieldsOfPair p
  | .gbPush _ => [.mem, .sp]
  | .gbPop p => .sp :: fieldsOfStackPair p
  | .gbLdRN r _ | .gbLdRR r _ | .gbRes _ r | .gbSet _ r => [fieldOfReg r]
  | .c8Cls | .c8Ret | .c8Jp _ | .c8Call _ | .c8SeByte _ _ | .c8SneByte _ _ | .c8SeReg _ _ | .c8LdByte _ _
  | .c8AddByte _ _ | .c8LdReg _ _ | .c8Or _ _ | .c8And _ _ | .c8Xor _ _ | .c8Add _ _ | .c8Sub _ _ | .c8Shr _ _
  | .c8Subn _ _ | .c8Shl _ _ | .c8SneReg _ _ | .c8LdI _ | .c8JpV0 _ | .c8Rnd _ _ | .c8Drw _ _ _ | .c8Skp _
  | .c8Sknp _ | .c8LdVxDt _ | .c8LdVxK _ | .c8LdDtVx _ | .c8LdStVx _ | .c8AddI _ | .c8LdF _ | .c8LdB _
  | .c8StoreRegs _ | .c8LoadRegs _ => []

/-! ## The operations of the handlers -/

theorem GbBlock.advance_zero (g : GbBlock) : g.advance 0 = g := by
  simp [GbBlock.advance]

theorem GbKeeps.refl (l : List GbField) (g : GbBlock) : GbKeeps l g g := by
  intro k
  cases k <;> simp [GbField.Kept, GbField.same]

theorem GbField.Kept.trans {k : GbField} {g g' g'' : GbBlock} (h : k.Kept g g') (h' : k.Kept g' g'') :
    k.Kept g g'' := by
  cases k <;> exact Eq.trans h' h

/-- Two operations in a row write what the one or the other writes. -/
theorem GbKeeps.trans {l l' : List GbField} {g g' g'' : GbBlock} (h : GbKeeps l g g') (h' : GbKeeps l' g' g'') :
    GbKeeps (l ++ l') g g'' := by
  intro k
  obtain hk | hk := h k
  · exact .inl (List.mem_append_left _ hk)
  · obtain hk' | hk' := h' k
    · exact .inl (List.mem_append_right _ hk')
    · exact .inr (hk.trans hk')

theorem GbKeeps.setA (g : GbBlock) (v : Byte) : GbKeeps [.a] g { g with a := v } := by
  intro k
  cases k <;> simp [GbField.Kept, GbField.same]

theorem GbKeeps.setHl (g : GbBlock) (v : Word) : GbKeeps [.h, .l] g (g.setHl v) := by
  intro k
  cases k <;> simp [GbField.Kept, GbField.same]

theorem GbKeeps.setSp (g : GbBlock) (v : Word) : GbKeeps [.sp] g { g with sp := v } := by
  intro k
  cases k <;> simp [GbField.Kept, GbField.same]

theorem GbKeeps.setPc (g : GbBlock) (v : Word) : GbKeeps [.pc] g { g with pc := v } := by
  intro k
  cases k <;> simp [GbField.Kept, GbField.same]

theorem GbKeeps.setIme (g : GbBlock) (v : Bool) : GbKeeps [.ime] g { g with ime := v } := by
  intro k
  cases k <;> simp [GbField.Kept, GbField.same]

theorem GbKeeps.setStatus (g : GbBlock) (st : Status) : GbKeeps [.status] g { g with status := st } := by
  intro k
  cases k <;> simp [GbField.Kept, GbField.same]

theorem GbKeeps.writeF (g : GbBlock) (v : Byte) : GbKeeps [.f] g (g.writeF v) := by
  intro k
  cases k <;> simp [GbField.Kept, GbField.same]

theorem GbKeeps.memWrite (g : GbBlock) (a : Word) (v : Byte) : GbKeeps [.mem] g (g.memWrite a v) := by
  intro k
  cases k <;> simp [GbField.Kept, GbField.same]

theorem GbKeeps.push16 (g : GbBlock) (v : Word) : GbKeeps [.mem, .sp] g (g.push16 v) := by
  intro k
  cases k <;> simp [GbField.Kept, GbField.same]

theorem GbKeeps.setAcc (g : GbBlock) (r : Byte × Byte) : GbKeeps [.a, .f] g (g.setAcc r) :=
  (GbKeeps.setA g r.1).trans (GbKeeps.writeF _ r.2)

theorem GbKeeps.addToHl (g : GbBlock) (v : Word) : GbKeeps [.h, .l, .f] g (g.addToHl v) :=
  (GbKeeps.setHl g _).trans (GbKeeps.writeF _ _)

theorem GbKeeps.setR (g : GbBlock) (r : Reg8) (v : Byte) : GbKeeps [fieldOfReg r] g (g.setR r v) := by
  intro k
  cases r <;> cases k <;> simp [GbBlock.setR, fieldOfReg, GbField.Kept, GbField.same]

theorem GbKeeps.setPair (g : GbBlock) (p : Pair) (v : Word) : GbKeeps (fieldsOfPair p) g (g.setPair p v) := by
  intro k
  cases p <;> cases k <;> simp [GbBlock.setPair, fieldsOfPair, GbField.Kept, GbField.same]

theorem GbKeeps.setStackPair (g : GbBlock) (p : StackPair) (v : Word) :
    GbKeeps (fieldsOfStackPair p) g (g.setStackPair p v) := by
  intro k
  cases p <;> cases k <;> simp [GbBlock.setStackPair, fieldsOfStackPair, GbField.Kept, GbField.same]

/-! ## The second lookup behind 0xCB (47_gb_cb R270) -/

/-- The CB table splits the sub-opcodes into four blocks of 64; the first has no row (30_encoding R91, R92). -/
theorem fetch_cbTable (sub : Byte) :
    fetch cbTable (sub.setWidth 16) =
      if sub.toNat < 0x40 then none else if sub.toNat < 0x80 then some .bit
      else if sub.toNat < 0xC0 then some .res else some .set := by
  revert sub
  decide

theorem fieldS_eq_ofNat (sub : Byte) : fieldS sub = BitVec.ofNat 3 sub.toNat := by
  revert sub
  decide

section Effect

variable {s t : State} {g g' : GbBlock}

/-- What 0xCB and a sub-opcode do to the active block: the halt of an unmatched sub-opcode, `BIT`, or a write of the
operand, each behind its sub-opcode (R270). -/
theorem exec_gbPrefixCb_block {sub : Byte} (hg : GbReady s g) (h : exec (.gbPrefixCb sub) s = .next t)
    (hg' : GbReady t g') :
    (sub.toNat < 0x40 ∧
        g' = { g.advance 1 with status := (g.advance 1).status.invalid (pairUp 0xCB sub) }) ∨
      (0x40 ≤ sub.toNat ∧ sub.toNat < 0x80 ∧ ∃ b v, g' = (g.advance 1).testBit b v) ∨
      (0x80 ≤ sub.toNat ∧ ∃ v, g' = (g.advance 1).setR (reg8Of (BitVec.ofNat 3 sub.toNat)) v) := by
  have hrun := State.runGb_block hg h hg'
  simp only [fetch_cbTable, fieldS_eq_ofNat] at hrun
  by_cases h40 : sub.toNat < 0x40
  · simp only [h40, if_true] at hrun
    exact .inl ⟨h40, hrun⟩
  by_cases h80 : sub.toNat < 0x80
  · simp only [h40, h80, if_true, if_false] at hrun
    exact .inr (.inl ⟨Nat.le_of_not_lt h40, h80, _, _, hrun⟩)
  · refine .inr (.inr ⟨Nat.le_of_not_lt h80, ?_⟩)
    by_cases hC0 : sub.toNat < 0xC0
    · simp only [h40, h80, hC0, if_true, if_false] at hrun
      exact ⟨_, hrun⟩
    · simp only [h40, h80, hC0, if_false] at hrun
      exact ⟨_, hrun⟩

/-- The frame of an instruction without operand bytes. -/
theorem GbKeeps.of_advance_zero {l : List GbField} (h : GbKeeps l g g') : GbKeeps l (g.advance 0) g' := by
  rwa [GbBlock.advance_zero]

/-- What an instruction does to the active block: `PC` moves past its operand bytes, and no field that its row
of `gbWrites` leaves out is written (40_dispatch_tick R117, R119, 30_encoding R89). -/
theorem exec_gb_keeps {i : Instr} (hg : GbReady s g) (h : exec i s = .next t) (hg' : GbReady t g') :
    GbKeeps (gbWrites i) (g.advance ((encode i).length - 1)) g' := by
  have hrun := h
  unfold exec at hrun
  cases i with
  | gbAddN _ | gbAdcN _ | gbSubN _ | gbSbcN _ | gbAndN _ | gbXorN _ | gbOrN _ =>
    obtain rfl := State.runGb_block hg hrun hg'
    exact GbKeeps.setAcc (g.advance 1) _
  | gbAddR _ | gbAdcR _ | gbSubR _ | gbSbcR _ | gbAndR _ | gbXorR _ | gbOrR _ =>
    obtain rfl := State.runGb_block hg hrun hg'
    exact (GbKeeps.setAcc g _).of_advance_zero
  | gbCpR _ =>
    obtain rfl := State.runGb_block hg hrun hg'
    exact (GbKeeps.writeF g _).of_advance_zero
  | gbCpN _ | gbBit _ _ =>
    obtain rfl := State.runGb_block hg hrun hg'
    exact GbKeeps.writeF (g.advance 1) _
  | gbAddHl _ =>
    obtain rfl := State.runGb_block hg hrun hg'
    exact (GbKeeps.addToHl g _).of_advance_zero
  | gbLdRR _ _ =>
    obtain rfl := State.runGb_block hg hrun hg'
    exact (GbKeeps.setR g _ _).of_advance_zero
  | gbLdRN _ _ | gbRes _ _ | gbSet _ _ =>
    obtain rfl := State.runGb_block hg hrun hg'
    exact GbKeeps.setR (g.advance 1) _ _
  | gbLdPairNn _ _ =>
    obtain rfl := State.runGb_block hg hrun hg'
    exact GbKeeps.setPair (g.advance 2) _ _
  | gbLdBcA | gbLdDeA =>
    obtain rfl := State.runGb_block hg hrun hg'
    exact (GbKeeps.memWrite g _ _).of_advance_zero
  | gbLdiHlA | gbLddHlA =>
    obtain rfl := State.runGb_block hg hrun hg'
    exact ((GbKeeps.memWrite g _ _).trans (GbKeeps.setHl _ _)).of_advance_zero
  | gbLdABc | gbLdADe =>
    obtain rfl := State.runGb_block hg hrun hg'
    exact (GbKeeps.setA g _).of_advance_zero
  | gbLdiAHl | gbLddAHl =>
    obtain rfl := State.runGb_block hg hrun hg'
    exact ((GbKeeps.setA g _).trans (GbKeeps.setHl _ _)).of_advance_zero
  | gbPush _ =>
    obtain rfl := State.runGb_block hg hrun hg'
    exact (GbKeeps.push16 g _).of_advance_zero
  | gbPop _ =>
    obtain rfl := State.runGb_block hg hrun hg'
    exact ((GbKeeps.setSp g _).trans (GbKeeps.setStackPair _ _ _)).of_advance_zero
  | gbJp _ =>
    obtain rfl := State.runGb_block hg hrun hg'
    exact GbKeeps.setPc (g.advance 2) _
  | gbJr _ =>
    obtain rfl := State.runGb_block hg hrun hg'
    exact GbKeeps.setPc (g.advance 1) _
  | gbJpCc cc nn =>
    have hpc : g' = if g.cond cc then { g.advance 2 with pc := nn } else g.advance 2 :=
      State.runGb_block hg hrun hg'
    split at hpc <;> subst hpc
    · exact GbKeeps.setPc (g.advance 2) _
    · exact GbKeeps.refl _ (g.advance 2)
  | gbJrCc cc e =>
    have hpc : g' = if g.cond cc then (g.advance 1).jumpBy e else g.advance 1 :=
      State.runGb_block hg hrun hg'
    split at hpc <;> subst hpc
    · exact GbKeeps.setPc (g.advance 1) _
    · exact GbKeeps.refl _ (g.advance 1)
  | gbCall _ =>
    obtain rfl := State.runGb_block hg hrun hg'
    exact (GbKeeps.push16 (g.advance 2) _).trans (GbKeeps.setPc _ _)
  | gbRet =>
    obtain rfl := State.runGb_block hg hrun hg'
    exact ((GbKeeps.setSp g _).trans (GbKeeps.setPc _ _)).of_advance_zero
  | gbStop | gbHalt =>
    obtain rfl := State.runGb_block hg hrun hg'
    exact (GbKeeps.setStatus g _).of_advance_zero
  | gbDi | gbEi =>
    obtain rfl := State.runGb_block hg hrun hg'
    exact (GbKeeps.setIme g _).of_advance_zero
  | gbPrefixCb sub =>
    have hrow : gbWrites (.gbPrefixCb sub) = cbWrites sub := rfl
    obtain ⟨h40, rfl⟩ | ⟨h40, h80, b, v, rfl⟩ | ⟨h80, v, rfl⟩ := exec_gbPrefixCb_block hg h hg'
    · rw [hrow, cbWrites, if_pos h40]
      exact GbKeeps.setStatus (g.advance 1) _
    · rw [hrow, cbWrites, if_neg (Nat.not_lt.2 h40), if_pos h80]
      exact GbKeeps.writeF (g.advance 1) _
    · rw [hrow, cbWrites, if_neg (by omega), if_neg (Nat.not_lt.2 h80)]
      exact GbKeeps.setR (g.advance 1) _ _
  | _ => exact absurd (archOf_of_gbReady hg h) (by simp [archOf])

end Effect

end Sys2Proof.Machine

namespace Sys2Proof.Machine

/-! # The rows of the GB table, read by column -/

@[simp] theorem mem_cbWrites {sub : Byte} {k : GbField} :
    k ∈ cbWrites sub ↔ (sub.toNat < 0x40 ∧ k = .status) ∨ (0x40 ≤ sub.toNat ∧ sub.toNat < 0x80 ∧ k = .f) ∨
      (0x80 ≤ sub.toNat ∧ fieldOfReg (reg8Of (BitVec.ofNat 3 sub.toNat)) = k) := by
  unfold cbWrites
  by_cases h40 : sub.toNat < 0x40
  · have h80 : sub.toNat < 0x80 := by omega
    simp only [h40, if_true, List.mem_singleton, Nat.not_le.2 h40, Nat.not_le.2 h80]
    tauto
  by_cases h80 : sub.toNat < 0x80
  · simp only [h40, h80, if_true, if_false, List.mem_singleton, Nat.not_le.2 h80, Nat.le_of_not_lt h40]
    tauto
  · simp only [h40, h80, if_false, List.mem_singleton, Nat.le_of_not_lt h80]
    tauto

@[simp] theorem fieldOfReg_inj {r q : Reg8} : fieldOfReg r = fieldOfReg q ↔ r = q := by
  cases r <;> cases q <;> simp [fieldOfReg]

@[simp] theorem fieldOfReg_eq_mem {r : Reg8} : fieldOfReg r = .mem ↔ r = .hlMem := fieldOfReg_inj (q := .hlMem)

@[simp] theorem fieldOfReg_eq_a {r : Reg8} : fieldOfReg r = .a ↔ r = .a := fieldOfReg_inj (q := .a)

@[simp] theorem fieldOfReg_eq_h {r : Reg8} : fieldOfReg r = .h ↔ r = .h := fieldOfReg_inj (q := .h)

@[simp] theorem fieldOfReg_eq_l {r : Reg8} : fieldOfReg r = .l ↔ r = .l := fieldOfReg_inj (q := .l)

/-- An 8-bit operand index writes a register or memory. -/
@[simp] theorem fieldOfReg_ne (r : Reg8) : fieldOfReg r ≠ .f ∧ fieldOfReg r ≠ .pc ∧ fieldOfReg r ≠ .sp ∧
    fieldOfReg r ≠ .ime ∧ fieldOfReg r ≠ .key ∧ fieldOfReg r ≠ .status := by
  cases r <;> decide

@[simp] theorem ne_fieldOfReg (r : Reg8) : .f ≠ fieldOfReg r ∧ .pc ≠ fieldOfReg r ∧ .sp ≠ fieldOfReg r ∧
    .ime ≠ fieldOfReg r ∧ .key ≠ fieldOfReg r ∧ .status ≠ fieldOfReg r := by
  cases r <;> decide

/-- A pair index writes registers or `SP`. -/
@[simp] theorem not_mem_fieldsOfPair (p : Pair) :
    .mem ∉ fieldsOfPair p ∧ .f ∉ fieldsOfPair p ∧ .pc ∉ fieldsOfPair p ∧ .ime ∉ fieldsOfPair p ∧
      .key ∉ fieldsOfPair p ∧ .status ∉ fieldsOfPair p := by
  cases p <;> decide

@[simp] theorem sp_mem_fieldsOfPair {p : Pair} : .sp ∈ fieldsOfPair p ↔ p = .sp := by
  cases p <;> decide

/-- A stack-pair index writes registers or `F`. -/
@[simp] theorem not_mem_fieldsOfStackPair (p : StackPair) :
    .mem ∉ fieldsOfStackPair p ∧ .pc ∉ fieldsOfStackPair p ∧ .ime ∉ fieldsOfStackPair p ∧
      .key ∉ fieldsOfStackPair p ∧ .status ∉ fieldsOfStackPair p := by
  cases p <;> decide

@[simp] theorem f_mem_fieldsOfStackPair {p : StackPair} : .f ∈ fieldsOfStackPair p ↔ p = .af := by
  cases p <;> decide

section Columns

variable {i : Instr}

theorem reg_mem_gbWrites {r : Reg8} (hr : r ≠ .hlMem) (h : fieldOfReg r ∈ gbWrites i) :
    (∃ src, i = .gbLdRR r src) ∨ (∃ n, i = .gbLdRN r n) ∨
      (∃ p nn, i = .gbLdPairNn p nn ∧ fieldOfReg r ∈ fieldsOfPair p) ∨
      (∃ p, i = .gbPop p ∧ fieldOfReg r ∈ fieldsOfStackPair p) ∨
      (∃ k, i ∈ [.gbRes k r, .gbSet k r]) ∨
      (∃ sub, i = .gbPrefixCb sub ∧ 0x80 ≤ sub.toNat ∧ reg8Of (BitVec.ofNat 3 sub.toNat) = r) ∨
      (r ∈ [.h, .l] ∧ (i ∈ [.gbLdiHlA, .gbLddHlA, .gbLdiAHl, .gbLddAHl] ∨ ∃ p, i = .gbAddHl p)) ∨
      (r = .a ∧ (i ∈ [.gbLdABc, .gbLdADe, .gbLdiAHl, .gbLddAHl] ∨
        (∃ q, i ∈ [.gbAddR q, .gbAdcR q, .gbSubR q, .gbSbcR q, .gbAndR q, .gbXorR q, .gbOrR q]) ∨
        ∃ n, i ∈ [.gbAddN n, .gbAdcN n, .gbSubN n, .gbSbcN n, .gbAndN n, .gbXorN n, .gbOrN n])) := by
  cases i with
  | gbLdRR q _ | gbLdRN q _ | gbRes _ q | gbSet _ q =>
    obtain rfl : r = q := by simpa [gbWrites] using h
    simp
  | gbPrefixCb sub =>
    obtain ⟨h80, rfl⟩ : 0x80 ≤ sub.toNat ∧ reg8Of (BitVec.ofNat 3 sub.toNat) = r := by
      simpa [gbWrites] using h
    simp [h80]
  | gbLdPairNn p nn => simpa [gbWrites] using h
  | gbPop p => simpa [gbWrites] using h
  | gbLdiHlA | gbLddHlA | gbAddHl _ =>
    simpa [gbWrites, hr] using h
  | gbLdiAHl | gbLddAHl =>
    obtain ha | hhl : r = .a ∨ (r = .h ∨ r = .l) := by
      simpa [gbWrites] using h
    · simp [ha]
    · simp [hhl]
  | gbLdABc | gbLdADe | gbAddR _ | gbAdcR _ | gbSubR _ | gbSbcR _ | gbAndR _ | gbXorR _ | gbOrR _
  | gbAddN _ | gbAdcN _ | gbSubN _ | gbSbcN _ | gbAndN _ | gbXorN _ | gbOrN _ =>
    simpa [gbWrites] using h
  | _ => simp [gbWrites, hr] at h

theorem f_mem_gbWrites (h : .f ∈ gbWrites i) :
    i = .gbPop .af ∨ (∃ p, i = .gbAddHl p) ∨
      (∃ q, i ∈ [.gbAddR q, .gbAdcR q, .gbSubR q, .gbSbcR q, .gbAndR q, .gbXorR q, .gbOrR q, .gbCpR q]) ∨
      (∃ n, i ∈ [.gbAddN n, .gbAdcN n, .gbSubN n, .gbSbcN n, .gbAndN n, .gbXorN n, .gbOrN n, .gbCpN n]) ∨
      (∃ k r, i = .gbBit k r) ∨ ∃ sub, i = .gbPrefixCb sub ∧ 0x40 ≤ sub.toNat ∧ sub.toNat < 0x80 := by
  cases i with
  | gbPrefixCb sub => simpa [gbWrites] using h
  | gbPop p => simpa [gbWrites] using h
  | gbAddHl _ | gbBit _ _ | gbCpR _ | gbCpN _
  | gbAddR _ | gbAdcR _ | gbSubR _ | gbSbcR _ | gbAndR _ | gbXorR _ | gbOrR _
  | gbAddN _ | gbAdcN _ | gbSubN _ | gbSbcN _ | gbAndN _ | gbXorN _ | gbOrN _ => simp
  | _ => simp [gbWrites] at h

theorem pc_mem_gbWrites (h : .pc ∈ gbWrites i) :
    (∃ nn, i ∈ [.gbJp nn, .gbCall nn]) ∨ (∃ cc nn, i = .gbJpCc cc nn) ∨ (∃ e, i = .gbJr e) ∨
      (∃ cc e, i = .gbJrCc cc e) ∨ i = .gbRet := by
  cases i with
  | gbJp _ | gbCall _ | gbJpCc _ _ | gbJr _ | gbJrCc _ _ | gbRet => simp
  | _ => simp [gbWrites] at h

theorem sp_mem_gbWrites (h : .sp ∈ gbWrites i) :
    (∃ nn, i = .gbLdPairNn .sp nn) ∨ (∃ p, i = .gbPush p) ∨ (∃ p, i = .gbPop p) ∨ (∃ nn, i = .gbCall nn) ∨
      i = .gbRet := by
  cases i with
  | gbLdPairNn p _ => simpa [gbWrites] using h
  | gbPush _ | gbPop _ | gbCall _ | gbRet => simp
  | _ => simp [gbWrites] at h

theorem mem_mem_gbWrites (h : .mem ∈ gbWrites i) :
    i ∈ [.gbLdBcA, .gbLdDeA, .gbLdiHlA, .gbLddHlA] ∨ (∃ src, i = .gbLdRR .hlMem src) ∨
      (∃ n, i = .gbLdRN .hlMem n) ∨ (∃ k, i ∈ [.gbRes k .hlMem, .gbSet k .hlMem]) ∨
      (∃ sub, i = .gbPrefixCb sub ∧ 0x80 ≤ sub.toNat ∧ reg8Of (BitVec.ofNat 3 sub.toNat) = .hlMem) ∨
      (∃ p, i = .gbPush p) ∨ ∃ nn, i = .gbCall nn := by
  cases i with
  | gbLdRR q _ | gbLdRN q _ | gbRes _ q | gbSet _ q =>
    obtain rfl := fieldOfReg_eq_mem.1 (List.mem_singleton.1 h).symm
    simp
  | gbPrefixCb sub => simpa [gbWrites] using h
  | gbLdBcA | gbLdDeA | gbLdiHlA | gbLddHlA | gbPush _ | gbCall _ => simp
  | _ => simp [gbWrites] at h

theorem ime_mem_gbWrites (h : .ime ∈ gbWrites i) : i = .gbDi ∨ i = .gbEi := by
  cases i with
  | gbDi | gbEi => simp
  | _ => simp [gbWrites] at h

theorem key_not_mem_gbWrites (i : Instr) : GbField.key ∉ gbWrites i := by
  cases i <;> simp [gbWrites]

theorem status_mem_gbWrites (h : .status ∈ gbWrites i) :
    i = .gbHalt ∨ i = .gbStop ∨ ∃ sub, i = .gbPrefixCb sub ∧ sub.toNat < 0x40 := by
  cases i with
  | gbPrefixCb sub => simpa [gbWrites] using h
  | gbHalt | gbStop => simp
  | _ => simp [gbWrites] at h

end Columns

/-! ## Registers as operands -/

theorem GbBlock.getR_of_kept {r : Reg8} {g g' : GbBlock} (hr : r ≠ .hlMem) (h : (fieldOfReg r).Kept g g') :
    g'.getR r = g.getR r := by
  cases r with
  | hlMem => exact absurd rfl hr
  | _ => exact h

theorem GbBlock.getR_advance {r : Reg8} (g : GbBlock) (hr : r ≠ .hlMem) (n : Nat) :
    (g.advance n).getR r = g.getR r := by
  cases r with
  | hlMem => exact absurd rfl hr
  | _ => rfl

/-- Settles O22: every clause reads one column of `gbWrites`, from the block with `PC` past the operand bytes. -/
theorem gbWritersOfEachField : Obligations.GbWritersOfEachField := by
  intro i s t g g' hg h hg'
  have hkept := fun k => (exec_gb_keeps hg h hg' k).symm
  refine ⟨fun r hr => (hkept (fieldOfReg r)).imp (fun hk => ?_) (reg_mem_gbWrites hr),
    (hkept .f).imp_right f_mem_gbWrites,
    (hkept .pc).imp_right pc_mem_gbWrites,
    (hkept .sp).imp_right sp_mem_gbWrites,
    (hkept .mem).imp_right mem_mem_gbWrites,
    (hkept .ime).imp_right ime_mem_gbWrites,
    (hkept .key).resolve_right (key_not_mem_gbWrites i),
    (hkept .status).imp_right status_mem_gbWrites⟩
  exact (GbBlock.getR_of_kept hr hk).trans (GbBlock.getR_advance g hr _)
end Sys2Proof.Machine

namespace Sys2Proof.Machine

/-! # Every step keeps the machine good (10_state R36) -/

/-! ## CHIP-8 instructions -/

section C8

variable {i : Instr} {s t : State} {b b' : C8Block}

/-- `SP` stays in 0 to 16: `CALL` raises it only from below 16 and `RET` lowers it only from above 0. -/
theorem exec_c8_sp_le (hb : C8Ready s b) (h : exec i s = .next t) (hb' : C8Ready t b')
    (hle : b.sp.toNat ≤ 16) : b'.sp.toNat ≤ 16 := by
  obtain hsame | hrow := exec_c8_kept hb h hb' .sp (by decide)
  · exact (congrArg BitVec.toNat hsame).trans_le hle
  obtain ⟨nnn, rfl⟩ | rfl := sp_mem_c8Writes hrow
  · obtain ⟨hlt, rfl⟩ | ⟨info, rfl⟩ := exec_c8Call_block hb h hb'
    · show (b.sp + 1).toNat ≤ 16
      bv_omega
    · exact hle
  · obtain ⟨hpos, -, pc, rfl⟩ | ⟨info, rfl⟩ := exec_c8Ret_block hb h hb'
    · show (b.sp - 1).toNat ≤ 16
      bv_omega
    · exact hle

/-- Memory stays canonical: both storing instructions check their addresses first (20_memory R51). -/
theorem exec_c8_mem_wf (hb : C8Ready s b) (h : exec i s = .next t) (hb' : C8Ready t b')
    (hwf : b.mem.wf Config.c8MemSize) : b'.mem.wf Config.c8MemSize := by
  obtain hsame | hrow := exec_c8_kept hb h hb' .mem (by decide)
  · exact (show b'.mem = b.mem from hsame) ▸ hwf
  obtain ⟨x, rfl⟩ | ⟨x, rfl⟩ := mem_mem_c8Writes hrow
  · obtain ⟨rfl, hin⟩ | ⟨info, rfl⟩ := State.runC8_guarded hb h hb'
    · exact Memory.wf_writeBytes _ hwf (hin.resolve_left (by decide))
    · exact hwf
  · obtain ⟨rfl, hin⟩ | ⟨info, rfl⟩ := State.runC8_guarded hb h hb'
    · exact storeRegs_wf b _ hwf (hin.resolve_left (Nat.succ_ne_zero _))
    · exact hwf

theorem c8Cause_ne_invalidOpcode (i : Instr) : c8Cause i ≠ .invalidOpcode := by
  cases i <;> simp [c8Cause]

theorem exec_c8_good (hb : C8Ready s b) (h : exec i s = .next t) (hb' : C8Ready t b') (hgood : b.Good) :
    b'.Good := by
  obtain ⟨hsp, hmem, hstatus⟩ := hgood
  refine ⟨exec_c8_sp_le hb h hb' hsp, exec_c8_mem_wf hb h hb' hmem, ?_⟩
  obtain hsame | ⟨hcause, info, hhalt⟩ := exec_c8_status hb h hb'
  · exact hsame ▸ hstatus
  · exact hhalt ▸ Status.good_halt _ _ hcause (c8Cause_ne_invalidOpcode i)

end C8

/-! ## GB instructions -/

section Gb

variable {i : Instr} {s t : State} {g g' : GbBlock}

/-- A block that keeps `F`, memory and the status stays good. -/
theorem GbKeeps.good {l : List GbField} (h : GbKeeps l g g') (hf : .f ∉ l) (hmem : .mem ∉ l)
    (hstatus : .status ∉ l) (hgood : g.Good) : g'.Good := by
  obtain ⟨hf₀, hmem₀, hstatus₀⟩ := hgood
  have hf' : g'.f = g.f := (h .f).resolve_left hf
  have hmem' : g'.mem = g.mem := (h .mem).resolve_left hmem
  have hstatus' : g'.status = g.status := (h .status).resolve_left hstatus
  exact ⟨hf' ▸ hf₀, hmem' ▸ hmem₀, hstatus' ▸ hstatus₀⟩

/-- Every write of `F` masks its low nibble, every store lies inside the 64 KiB, and a halt has a cause. -/
theorem exec_gb_good (hg : GbReady s g) (h : exec i s = .next t) (hg' : GbReady t g') (hgood : g.Good) :
    g'.Good := by
  have hrun := h
  unfold exec at hrun
  cases i with
  | gbAddN _ | gbAdcN _ | gbSubN _ | gbSbcN _ | gbAndN _ | gbXorN _ | gbOrN _
  | gbAddR _ | gbAdcR _ | gbSubR _ | gbSbcR _ | gbAndR _ | gbXorR _ | gbOrR _
  | gbCpN _ | gbCpR _ | gbBit _ _ | gbAddHl _ =>
    obtain rfl := State.runGb_block hg hrun hg'
    exact hgood.of_masked rfl rfl rfl
  | gbLdRR _ _ =>
    obtain rfl := State.runGb_block hg hrun hg'
    exact hgood.setR _ _
  | gbLdRN _ _ | gbRes _ _ | gbSet _ _ =>
    obtain rfl := State.runGb_block hg hrun hg'
    exact (hgood.advance 1).setR _ _
  | gbLdBcA | gbLdDeA | gbLdiHlA | gbLddHlA =>
    obtain rfl := State.runGb_block hg hrun hg'
    exact hgood.memWrite _ _
  | gbPush _ =>
    obtain rfl := State.runGb_block hg hrun hg'
    exact hgood.push16 _
  | gbCall _ =>
    obtain rfl := State.runGb_block hg hrun hg'
    exact (hgood.advance 2).push16 _
  | gbPop _ =>
    obtain rfl := State.runGb_block hg hrun hg'
    exact GbBlock.Good.setStackPair (g := g.popped) hgood _ _
  | gbStop | gbHalt =>
    obtain rfl := State.runGb_block hg hrun hg'
    exact hgood.withStatus (Status.good_halt _ _ (by decide) (by decide))
  | gbPrefixCb sub =>
    obtain ⟨-, rfl⟩ | ⟨-, -, b, v, rfl⟩ | ⟨-, v, rfl⟩ := exec_gbPrefixCb_block hg h hg'
    · exact (hgood.advance 1).withStatus (Status.good_invalid _ _)
    · exact (hgood.advance 1).writeF _
    · exact (hgood.advance 1).setR _ _
  | _ =>
    exact (exec_gb_keeps hg h hg').good (by simp [gbWrites]) (by simp [gbWrites]) (by simp [gbWrites])
      (hgood.advance _)

end Gb

/-! ## The machine -/

section Machine

variable {s t : State}

theorem State.Good.putC8 (hs : s.Good) {b : C8Block} (hb : b.Good) : (s.putC8 b).Good := by
  obtain ⟨hchip8, hrest⟩ := hs
  exact ⟨hchip8.putActive hb, hrest⟩

theorem State.Good.putGb (hs : s.Good) {g : GbBlock} (hg : g.Good) : (s.putGb g).Good := by
  obtain ⟨hchip8, hgb, hreset⟩ := hs
  exact ⟨hchip8, hgb.putActive hg, hreset⟩

theorem State.Good.c8Active (hs : s.Good) {b : C8Block} (hb : s.chip8.active = some b) : b.Good :=
  let ⟨hchip8, _⟩ := hs
  hchip8.active hb

theorem State.Good.gbActive (hs : s.Good) {g : GbBlock} (hg : s.gb.active = some g) : g.Good :=
  let ⟨_, hgb, _⟩ := hs
  hgb.active hg

/-- The reply is no part of what is good. -/
theorem State.Good.answer (hs : s.Good) (r : Reply) : (s.answer r).Good := hs

theorem exec_good {i : Instr} (hs : s.Good) (h : exec i s = .next t) : t.Good := by
  obtain ⟨-, b, b', d, r, hb, rfl⟩ | ⟨-, g, g', r, hg, rfl⟩ := exec_next h
  · have hb' : b'.Good :=
      exec_c8_good hb h ⟨hb.1, Engine.active_putActive b' hb.2⟩ (hs.c8Active hb.2)
    exact hs.putC8 hb'
  · have hg' : g'.Good :=
      exec_gb_good hg h ⟨hg.1, Engine.active_putActive g' hg.2⟩ (hs.gbActive hg.2)
    exact hs.putGb hg'

theorem tickC8_good (hs : s.Good) (h : tickC8 s = .next t) : t.Good := by
  obtain ⟨b, hb, hcases⟩ := tickC8_next h
  have hgood := hs.c8Active hb
  obtain ⟨-, rfl⟩ | ⟨-, -, rfl⟩ | ⟨-, -, -, rfl⟩ | ⟨k, hrun, -, -, -, hexec⟩ := hcases
  · exact hs
  · exact hs.putC8 hgood.readFault
  · exact hs.putC8 (hgood.noEntry _)
  · exact exec_good (hs.putC8 (hgood.dispatched hrun _)) hexec

theorem tickGb_good (hs : s.Good) (h : tickGb s = .next t) : t.Good := by
  obtain ⟨g, hg, hcases⟩ := tickGb_next h
  have hgood := hs.gbActive hg
  obtain ⟨-, rfl⟩ | ⟨-, -, rfl⟩ | ⟨i, rest, hrun, -, -, hexec⟩ := hcases
  · exact hs
  · exact hs.putGb (hgood.noEntry _)
  · exact exec_good (hs.putGb (hgood.dispatched hrun _)) hexec

theorem tick_good (hs : s.Good) (h : tick s = .next t) : t.Good := by
  unfold tick at h
  split at h
  · exact tickC8_good hs h
  · exact tickGb_good hs h

/-- A new block has the reset values, and a failed allocation only changes a counter (R310). -/
theorem startBlock_good (hs : s.Good) : (startBlock s).Good := by
  obtain ⟨hchip8, hgb, hreset⟩ := hs
  unfold startBlock
  split
  · exact ⟨hchip8, hgb, hreset⟩
  · split
    · exact ⟨hchip8.addBlock C8Block.reset_good, hgb, hreset⟩
    · exact ⟨hchip8, hgb.addBlock (GbBlock.resetWith_good hreset), hreset⟩

theorem setContext_good {id : Option Nat} (hs : s.Good) (h : setContext s id = .next t) : t.Good := by
  obtain ⟨hchip8, hgb, hreset⟩ := hs
  unfold setContext at h
  split at h <;> split at h <;> cases h
  · exact ⟨hchip8.setCtx ‹_›, hgb, hreset⟩
  · exact ⟨hchip8, hgb.setCtx ‹_›, hreset⟩

theorem loadProgram_good {image : Option (List Byte)} (hs : s.Good) (h : loadProgram s image = .next t) :
    t.Good := by
  unfold loadProgram at h
  split at h <;> dsimp only at h <;> split at h <;> cases h
  · exact State.Good.putC8 hs ((hs.c8Active ‹_›).load image)
  · exact State.Good.putGb hs ((hs.gbActive ‹_›).load image)

theorem setKeyboardValue_good {code : Nat} (hs : s.Good) (h : setKeyboardValue s code = .next t) :
    t.Good := by
  unfold setKeyboardValue at h
  split at h <;> split at h <;> cases h
  · have hgood := hs.c8Active ‹s.chip8.active = some _›
    exact hs.putC8 hgood
  · have hgood := hs.gbActive ‹s.gb.active = some _›
    exact hs.putGb hgood

theorem quitProgram_good (hs : s.Good) : (quitProgram s).Good := by
  obtain ⟨hchip8, hgb, hreset⟩ := hs
  unfold quitProgram
  split
  · exact ⟨hchip8.quit, hgb, hreset⟩
  · exact ⟨hchip8, hgb.quit, hreset⟩

theorem timerTick_good (hs : s.Good) (h : timerTick s = .next t) : t.Good := by
  unfold timerTick at h
  split at h
  · split at h <;> cases h
    have hgood := hs.c8Active ‹s.chip8.active = some _›
    exact hs.putC8 hgood
  · cases h

theorem perform_good {op : HostOp} (hs : s.Good) (h : perform op s = .next t) : t.Good := by
  cases op with
  | initializeBlock => cases h; exact startBlock_good hs
  | setEmulationContext id => exact setContext_good hs h
  | loadProgram image => exact loadProgram_good hs h
  | tickEmulation => exact tick_good hs h
  | setKeyboardValue code => exact setKeyboardValue_good hs h
  | quitProgram => cases h; exact quitProgram_good hs
  | timerTick => exact timerTick_good hs h

end Machine

/-- Settles O17: a step is one host operation, and each of them keeps the machine good. -/
theorem stepKeepsGood : Obligations.StepKeepsGood := by
  intro s t hs h
  have htaken : s.taken.Good := hs
  exact perform_good htaken h

end Sys2Proof.Machine

namespace Sys2Proof.Machine

/-! # What a lookup in an opcode table finds (40_dispatch_tick R112) -/

section Lookup

variable {κ : Type} {table : List (Entry κ)} {op : Word}

theorem fetch_eq_some {k : κ} (h : fetch table op = some k) :
    ∃ e ∈ table, op &&& e.mask = e.mtch ∧ e.handler = k := by
  obtain ⟨e, he, hk⟩ := Option.map_eq_some_iff.1 h
  exact ⟨e, List.mem_of_find?_eq_some he, by simpa using List.find?_some he, hk⟩

theorem fetch_eq_none_iff : fetch table op = none ↔ ∀ e ∈ table, op &&& e.mask ≠ e.mtch := by
  simp [fetch]

/-- An opcode that satisfies two patterns gives the bits that both masks keep one value. -/
theorem clash_of_matches {e e' : Entry κ} (h : op &&& e.mask = e.mtch) (h' : op &&& e'.mask = e'.mtch) :
    e.mtch &&& e'.mask = e'.mtch &&& e.mask := by
  rw [← h, ← h', BitVec.and_assoc, BitVec.and_assoc, BitVec.and_comm e.mask]

end Lookup

theorem c8Table_clash : ∀ e ∈ c8Table, ∀ e' ∈ c8Table,
    e.mtch &&& e'.mask = e'.mtch &&& e.mask → e = e' := by decide

/-- Of the GB patterns only that of `HALT` lies inside another, that of `LD r,r'` (30_encoding R90). -/
theorem gbTable_clash : ∀ e ∈ gbTable, ∀ e' ∈ gbTable, e.mtch &&& e'.mask = e'.mtch &&& e.mask →
    e = e' ∨ (e = ⟨0x00FF, 0x0076, .halt⟩ ∧ e'.handler = .ldRR) ∨
      (e.handler = .ldRR ∧ e' = ⟨0x00FF, 0x0076, .halt⟩) := by decide

theorem cbTable_clash : ∀ e ∈ cbTable, ∀ e' ∈ cbTable,
    e.mtch &&& e'.mask = e'.mtch &&& e.mask → e = e' := by decide

/-- Settles O4: two patterns that one opcode satisfies clash, and only those of `HALT` and `LD r,r'` do. -/
theorem patternsDisjoint : Obligations.PatternsDisjoint := by
  refine ⟨fun op e he e' he' h h' => c8Table_clash e he e' he' (clash_of_matches h h'),
    fun op e he e' he' h h' => ?_,
    fun op e he e' he' h h' => cbTable_clash e he e' he' (clash_of_matches h h'),
    by decide, by decide, by decide⟩
  obtain heq | ⟨rfl, -⟩ | ⟨-, rfl⟩ := gbTable_clash e he e' he' (clash_of_matches h h')
  · exact .inl heq
  · exact .inr h
  · exact .inr h'

end Sys2Proof.Machine

namespace Sys2Proof.Machine

/-! # Opcodes as numbers: masks, fields and formats (30_encoding R81, R82, R86, R95) -/

/-! ## What each mask keeps -/

theorem beWord_and (a b c d : Byte) : beWord a b &&& beWord c d = beWord (a &&& c) (b &&& d) :=
  BitVec.and_append

theorem beWord_extract (op : Word) : beWord (op.extractLsb' 8 8) (op.extractLsb' 0 8) = op :=
  pairUp_hiByte_loByte op

/-- A mask of 16 bits acts on each byte. -/
theorem and_beWord_toNat (op : Word) (c d : Byte) :
    (op &&& beWord c d).toNat = 256 * (hiByte op &&& c).toNat + (loByte op &&& d).toNat := by
  rw [← beWord_toNat, ← beWord_and]
  exact congrArg (fun w => (w &&& beWord c d).toNat) (beWord_extract op).symm

theorem setWidth_toNat (op : Byte) : (op.setWidth 16 : Word).toNat = op.toNat :=
  BitVec.toNat_setWidth_of_le (by decide)

theorem setWidth_eq_iff {op v : Byte} : op.setWidth 16 = (v.setWidth 16 : Word) ↔ op = v := by
  rw [← BitVec.toNat_inj, ← BitVec.toNat_inj, setWidth_toNat, setWidth_toNat]

theorem and_0F_toNat (v : Byte) : (v &&& 0x0F).toNat = v.toNat % 16 := by
  revert v
  decide

theorem and_F000_toNat (op : Word) : (op &&& 0xF000).toNat = 4096 * (op.toNat / 4096) := by
  have h := and_beWord_toNat op 0xF0 0x00
  have hlo : (loByte op &&& 0x00).toNat = 0 := congrArg BitVec.toNat BitVec.and_zero
  rw [and_F0_toNat, hiByte_toNat, hlo] at h
  exact h.trans (by omega)

theorem and_F00F_toNat (op : Word) : (op &&& 0xF00F).toNat = 4096 * (op.toNat / 4096) + op.toNat % 16 := by
  have h := and_beWord_toNat op 0xF0 0x0F
  rw [and_F0_toNat, and_0F_toNat, hiByte_toNat, loByte_toNat] at h
  exact h.trans (by omega)

theorem and_F0FF_toNat (op : Word) : (op &&& 0xF0FF).toNat = 4096 * (op.toNat / 4096) + op.toNat % 256 := by
  have h := and_beWord_toNat op 0xF0 (BitVec.allOnes 8)
  rw [and_F0_toNat, BitVec.and_allOnes, hiByte_toNat, loByte_toNat] at h
  exact h.trans (by omega)

section WordMasks

variable {op m : Word}

theorem and_FFFF_eq_iff : op &&& 0xFFFF = m ↔ op.toNat = m.toNat := by
  rw [show op &&& 0xFFFF = op from BitVec.and_allOnes, BitVec.toNat_inj]

theorem and_F000_eq_iff : op &&& 0xF000 = m ↔ op.toNat / 4096 = m.toNat / 4096 ∧ m.toNat % 4096 = 0 := by
  rw [← BitVec.toNat_inj, and_F000_toNat]
  omega

theorem and_F00F_eq_iff : op &&& 0xF00F = m ↔
    op.toNat / 4096 = m.toNat / 4096 ∧ op.toNat % 16 = m.toNat % 4096 := by
  rw [← BitVec.toNat_inj, and_F00F_toNat]
  omega

theorem and_F0FF_eq_iff : op &&& 0xF0FF = m ↔
    op.toNat / 4096 = m.toNat / 4096 ∧ op.toNat % 256 = m.toNat % 4096 := by
  rw [← BitVec.toNat_inj, and_F0FF_toNat]
  omega

end WordMasks

theorem and_00E7_toNat (op : Byte) :
    (op.setWidth 16 &&& 0x00E7 : Word).toNat = 32 * (op.toNat / 32) + op.toNat % 8 := by
  revert op
  decide

theorem and_00CF_toNat (op : Byte) :
    (op.setWidth 16 &&& 0x00CF : Word).toNat = 64 * (op.toNat / 64) + op.toNat % 16 := by
  revert op
  decide

theorem and_00C7_toNat (op : Byte) :
    (op.setWidth 16 &&& 0x00C7 : Word).toNat = 64 * (op.toNat / 64) + op.toNat % 8 := by
  revert op
  decide

theorem and_00F8_toNat (op : Byte) : (op.setWidth 16 &&& 0x00F8 : Word).toNat = 8 * (op.toNat / 8) := by
  revert op
  decide

theorem and_00C0_toNat (op : Byte) : (op.setWidth 16 &&& 0x00C0 : Word).toNat = 64 * (op.toNat / 64) := by
  revert op
  decide

theorem and_00FF (op : Byte) : op.setWidth 16 &&& (0x00FF : Word) = op.setWidth 16 := by
  revert op
  decide

/-! ## Fields and formats -/

theorem append_toNat {m n : Nat} (x : BitVec m) (y : BitVec n) :
    (x ++ y).toNat = 2 ^ n * x.toNat + y.toNat := by
  rw [BitVec.toNat_append, ← Nat.shiftLeft_add_eq_or_of_lt y.isLt, Nat.shiftLeft_eq, Nat.mul_comm]

theorem extract_toNat {n : Nat} (op : BitVec n) (start len : Nat) :
    (op.extractLsb' start len).toNat = op.toNat / 2 ^ start % 2 ^ len := by
  rw [BitVec.extractLsb'_toNat, Nat.shiftRight_eq_div_pow]

theorem fieldX_toNat (op : Word) : (fieldX op).toNat = op.toNat / 256 % 16 := extract_toNat op 8 4

theorem fieldY_toNat (op : Word) : (fieldY op).toNat = op.toNat / 16 % 16 := extract_toNat op 4 4

theorem fieldN_toNat (op : Word) : (fieldN op).toNat = op.toNat % 16 :=
  (extract_toNat op 0 4).trans (by omega)

theorem fieldNNN_toNat (op : Word) : (fieldNNN op).toNat = op.toNat % 4096 :=
  (extract_toNat op 0 12).trans (by omega)

theorem fieldKK_toNat (op : Word) : (fieldKK op).toNat = op.toNat % 256 :=
  (extract_toNat op 0 8).trans (by omega)

theorem fieldD_toNat (op : Byte) : (fieldD op).toNat = op.toNat / 8 % 8 := extract_toNat op 3 3

theorem fieldS_toNat (op : Byte) : (fieldS op).toNat = op.toNat % 8 :=
  (extract_toNat op 0 3).trans (by omega)

theorem fieldPP_toNat (op : Byte) : (fieldPP op).toNat = op.toNat / 16 % 4 := extract_toNat op 4 2

theorem fieldCC_toNat (op : Byte) : (fieldCC op).toNat = op.toNat / 8 % 4 := extract_toNat op 3 2

theorem wordXS_toNat (hi x : BitVec 4) (lo : Byte) :
    (wordXS hi x lo).toNat = 4096 * hi.toNat + 256 * x.toNat + lo.toNat := by
  simp only [wordXS, append_toNat]
  omega

theorem wordXY_toNat (hi x y lo : BitVec 4) :
    (wordXY hi x y lo).toNat = 4096 * hi.toNat + 256 * x.toNat + 16 * y.toNat + lo.toNat := by
  simp only [wordXY, append_toNat]
  omega

theorem wordNNN_toNat (hi : BitVec 4) (nnn : BitVec 12) :
    (wordNNN hi nnn).toNat = 4096 * hi.toNat + nnn.toNat := append_toNat hi nnn

theorem byteDS_toNat (hi : BitVec 2) (d s : BitVec 3) :
    (byteDS hi d s).toNat = 64 * hi.toNat + 8 * d.toNat + s.toNat := by
  simp only [byteDS, append_toNat]
  omega

theorem bytePP_toNat (hi pp : BitVec 2) (lo : BitVec 4) :
    (bytePP hi pp lo).toNat = 64 * hi.toNat + 16 * pp.toNat + lo.toNat := by
  simp only [bytePP, append_toNat]
  omega

theorem byteCC_toNat (hi : BitVec 3) (cc : BitVec 2) (lo : BitVec 3) :
    (byteCC hi cc lo).toNat = 32 * hi.toNat + 8 * cc.toNat + lo.toNat := by
  simp only [byteCC, append_toNat]
  omega

/-! ## A field of a word laid out by its format -/

@[simp] theorem fieldNNN_wordNNN (hi : BitVec 4) (nnn : BitVec 12) : fieldNNN (wordNNN hi nnn) = nnn := by
  have := nnn.isLt
  apply BitVec.eq_of_toNat_eq
  rw [fieldNNN_toNat, wordNNN_toNat]
  omega

@[simp] theorem fieldX_wordXS (hi x : BitVec 4) (lo : Byte) : fieldX (wordXS hi x lo) = x := by
  have := x.isLt
  have := lo.isLt
  apply BitVec.eq_of_toNat_eq
  rw [fieldX_toNat, wordXS_toNat]
  omega

@[simp] theorem fieldKK_wordXS (hi x : BitVec 4) (lo : Byte) : fieldKK (wordXS hi x lo) = lo := by
  have := lo.isLt
  apply BitVec.eq_of_toNat_eq
  rw [fieldKK_toNat, wordXS_toNat]
  omega

@[simp] theorem fieldX_wordXY (hi x y lo : BitVec 4) : fieldX (wordXY hi x y lo) = x := by
  have := x.isLt
  have := y.isLt
  have := lo.isLt
  apply BitVec.eq_of_toNat_eq
  rw [fieldX_toNat, wordXY_toNat]
  omega

@[simp] theorem fieldY_wordXY (hi x y lo : BitVec 4) : fieldY (wordXY hi x y lo) = y := by
  have := y.isLt
  have := lo.isLt
  apply BitVec.eq_of_toNat_eq
  rw [fieldY_toNat, wordXY_toNat]
  omega

@[simp] theorem fieldN_wordXY (hi x y lo : BitVec 4) : fieldN (wordXY hi x y lo) = lo := by
  have := lo.isLt
  apply BitVec.eq_of_toNat_eq
  rw [fieldN_toNat, wordXY_toNat]
  omega

@[simp] theorem fieldD_byteDS (hi : BitVec 2) (d s : BitVec 3) : fieldD (byteDS hi d s) = d := by
  have := d.isLt
  have := s.isLt
  apply BitVec.eq_of_toNat_eq
  rw [fieldD_toNat, byteDS_toNat]
  omega

@[simp] theorem fieldS_byteDS (hi : BitVec 2) (d s : BitVec 3) : fieldS (byteDS hi d s) = s := by
  have := s.isLt
  apply BitVec.eq_of_toNat_eq
  rw [fieldS_toNat, byteDS_toNat]
  omega

@[simp] theorem fieldPP_bytePP (hi pp : BitVec 2) (lo : BitVec 4) : fieldPP (bytePP hi pp lo) = pp := by
  have := pp.isLt
  have := lo.isLt
  apply BitVec.eq_of_toNat_eq
  rw [fieldPP_toNat, bytePP_toNat]
  omega

@[simp] theorem fieldCC_byteCC (hi : BitVec 3) (cc : BitVec 2) (lo : BitVec 3) :
    fieldCC (byteCC hi cc lo) = cc := by
  have := cc.isLt
  have := lo.isLt
  apply BitVec.eq_of_toNat_eq
  rw [fieldCC_toNat, byteCC_toNat]
  omega

/-! ## The opcodes of a pattern: a mask and a match value pin the fixed fields of a format -/

section Patterns

variable {w : Word} {op : Byte}

theorem and_F000_eq_wordNNN {hi : BitVec 4} :
    w &&& 0xF000 = wordNNN hi 0#12 ↔ w = wordNNN hi (fieldNNN w) := by
  simp only [← BitVec.toNat_inj, and_F000_toNat, wordNNN_toNat, fieldNNN_toNat, BitVec.toNat_zero]
  omega

theorem and_F000_eq_wordXS {hi : BitVec 4} :
    w &&& 0xF000 = wordXS hi 0#4 0#8 ↔ w = wordXS hi (fieldX w) (fieldKK w) := by
  simp only [← BitVec.toNat_inj, and_F000_toNat, wordXS_toNat, fieldX_toNat, fieldKK_toNat, BitVec.toNat_zero]
  omega

theorem and_F0FF_eq_wordXS {hi : BitVec 4} {lo : Byte} :
    w &&& 0xF0FF = wordXS hi 0#4 lo ↔ w = wordXS hi (fieldX w) lo := by
  have := lo.isLt
  simp only [← BitVec.toNat_inj, and_F0FF_toNat, wordXS_toNat, fieldX_toNat, BitVec.toNat_zero]
  omega

theorem and_F00F_eq_wordXY {hi lo : BitVec 4} :
    w &&& 0xF00F = wordXY hi 0#4 0#4 lo ↔ w = wordXY hi (fieldX w) (fieldY w) lo := by
  have := lo.isLt
  simp only [← BitVec.toNat_inj, and_F00F_toNat, wordXY_toNat, fieldX_toNat, fieldY_toNat, BitVec.toNat_zero]
  omega

theorem and_F000_eq_wordXY {hi : BitVec 4} :
    w &&& 0xF000 = wordXY hi 0#4 0#4 0#4 ↔ w = wordXY hi (fieldX w) (fieldY w) (fieldN w) := by
  simp only [← BitVec.toNat_inj, and_F000_toNat, wordXY_toNat, fieldX_toNat, fieldY_toNat, fieldN_toNat,
    BitVec.toNat_zero]
  omega

theorem and_00E7_eq_byteCC {hi lo : BitVec 3} :
    op.setWidth 16 &&& 0x00E7 = (byteCC hi 0#2 lo).setWidth 16 ↔ op = byteCC hi (fieldCC op) lo := by
  have := lo.isLt
  simp only [← BitVec.toNat_inj, and_00E7_toNat, setWidth_toNat, byteCC_toNat, fieldCC_toNat, BitVec.toNat_zero]
  omega

theorem and_00CF_eq_bytePP {hi : BitVec 2} {lo : BitVec 4} :
    op.setWidth 16 &&& 0x00CF = (bytePP hi 0#2 lo).setWidth 16 ↔ op = bytePP hi (fieldPP op) lo := by
  have := lo.isLt
  simp only [← BitVec.toNat_inj, and_00CF_toNat, setWidth_toNat, bytePP_toNat, fieldPP_toNat, BitVec.toNat_zero]
  omega

theorem and_00C7_eq_byteDS {hi : BitVec 2} {lo : BitVec 3} :
    op.setWidth 16 &&& 0x00C7 = (byteDS hi 0#3 lo).setWidth 16 ↔ op = byteDS hi (fieldD op) lo := by
  have := lo.isLt
  simp only [← BitVec.toNat_inj, and_00C7_toNat, setWidth_toNat, byteDS_toNat, fieldD_toNat, BitVec.toNat_zero]
  omega

theorem and_00F8_eq_byteDS {hi : BitVec 2} {d : BitVec 3} :
    op.setWidth 16 &&& 0x00F8 = (byteDS hi d 0#3).setWidth 16 ↔ op = byteDS hi d (fieldS op) := by
  simp only [← BitVec.toNat_inj, and_00F8_toNat, setWidth_toNat, byteDS_toNat, fieldS_toNat, BitVec.toNat_zero]
  omega

theorem and_00C0_eq_byteDS {hi : BitVec 2} :
    op.setWidth 16 &&& 0x00C0 = (byteDS hi 0#3 0#3).setWidth 16 ↔ op = byteDS hi (fieldD op) (fieldS op) := by
  simp only [← BitVec.toNat_inj, and_00C0_toNat, setWidth_toNat, byteDS_toNat, fieldD_toNat, fieldS_toNat,
    BitVec.toNat_zero]
  omega

end Patterns

end Sys2Proof.Machine

namespace Sys2Proof.Machine

/-! # The rows of the tables, found by their match values -/

/-- The first row with match value `v` has mask `m` and tag `k`: a way to name a row that Lean can evaluate. -/
abbrev RowAt {κ : Type} (table : List (Entry κ)) (m v : Word) (k : κ) : Prop :=
  table.find? (·.mtch == v) = some ⟨m, v, k⟩

theorem RowAt.mem {κ : Type} {table : List (Entry κ)} {m v : Word} {k : κ} (h : RowAt table m v k) :
    ⟨m, v, k⟩ ∈ table :=
  List.mem_of_find?_eq_some h

theorem c8Table_handler : ∀ e ∈ c8Table, ∀ e' ∈ c8Table, e.handler = e'.handler → e = e' := by decide

theorem gbTable_handler : ∀ e ∈ gbTable, ∀ e' ∈ gbTable, e.handler = e'.handler → e = e' := by decide

theorem cbTable_handler : ∀ e ∈ cbTable, ∀ e' ∈ cbTable, e.handler = e'.handler → e = e' := by decide

section Rows

variable {κ : Type} {table : List (Entry κ)} {m v op : Word} {k : κ}

/-- Where each tag stands in one row, a lookup that gives a row's tag found that row. -/
theorem matches_of_fetch (htag : ∀ e ∈ table, ∀ e' ∈ table, e.handler = e'.handler → e = e')
    (hrow : RowAt table m v k) (h : fetch table op = some k) : op &&& m = v := by
  obtain ⟨e, he, hmatch, hk⟩ := fetch_eq_some h
  obtain rfl := htag e he _ hrow.mem hk
  exact hmatch

/-- A row is found where no other row's pattern is satisfied. -/
theorem fetch_of_matches (hrow : RowAt table m v k) (hmatch : op &&& m = v)
    (halone : ∀ e ∈ table, op &&& e.mask = e.mtch → e = ⟨m, v, k⟩) : fetch table op = some k := by
  cases hfetch : fetch table op with
  | none => exact absurd hmatch (fetch_eq_none_iff.1 hfetch _ hrow.mem)
  | some k' =>
    obtain ⟨e, he, hmatch', rfl⟩ := fetch_eq_some hfetch
    rw [halone e he hmatch']

end Rows

theorem fetch_c8Table_iff {m v op : Word} {k : C8Op} (hrow : RowAt c8Table m v k) :
    fetch c8Table op = some k ↔ op &&& m = v :=
  ⟨matches_of_fetch c8Table_handler hrow, fun hmatch => fetch_of_matches hrow hmatch fun _ he h =>
    c8Table_clash _ he _ hrow.mem (clash_of_matches h hmatch)⟩

theorem fetch_cbTable_iff {m v op : Word} {k : CbOp} (hrow : RowAt cbTable m v k) :
    fetch cbTable op = some k ↔ op &&& m = v :=
  ⟨matches_of_fetch cbTable_handler hrow, fun hmatch => fetch_of_matches hrow hmatch fun _ he h =>
    cbTable_clash _ he _ hrow.mem (clash_of_matches h hmatch)⟩

/-- 0x76 is `HALT`, whose row stands before that of `LD r,r'` (30_encoding R90). -/
theorem fetch_gbTable_halt {op : Word} (h : op &&& 0x00FF = 0x0076) : fetch gbTable op = some .halt := by
  rw [fetch, gbTable, List.find?_cons_of_neg (by simp only [h]; decide),
    List.find?_cons_of_pos (by simp only [h]; decide)]
  rfl

/-- A GB row is found where its pattern is satisfied, but for the row of `LD r,r'` at 0x76. -/
theorem fetch_gbTable_iff {m v op : Word} {k : GbOp} (hrow : RowAt gbTable m v k) :
    fetch gbTable op = some k ↔ op &&& m = v ∧ (k = .ldRR → op &&& 0x00FF ≠ 0x0076) := by
  refine ⟨fun h => ⟨matches_of_fetch gbTable_handler hrow h, ?_⟩, fun ⟨hmatch, hnot⟩ => ?_⟩
  · rintro rfl h76
    rw [fetch_gbTable_halt h76] at h
    cases h
  by_cases h76 : op &&& 0x00FF = 0x0076
  · have hhalt : RowAt gbTable 0x00FF 0x0076 .halt := rfl
    obtain heq | ⟨-, hk⟩ | ⟨hk, -⟩ := gbTable_clash _ hrow.mem _ hhalt.mem (clash_of_matches hmatch h76)
    · cases heq
      exact fetch_gbTable_halt h76
    · cases hk
    · exact absurd h76 (hnot hk)
  · refine fetch_of_matches hrow hmatch fun e he h => ?_
    obtain heq | ⟨rfl, -⟩ | ⟨-, heq⟩ := gbTable_clash e he _ hrow.mem (clash_of_matches h hmatch)
    · exact heq
    · exact absurd h h76
    · cases heq
      exact absurd hmatch h76

end Sys2Proof.Machine

namespace Sys2Proof.Machine

/-! # CHIP-8 words: decoding and encoding are inverse (30_encoding R80 to R83) -/

theorem decode_beBytes {w : Word} {k : C8Op} (h : fetch c8Table w = some k) (rest : List Byte) :
    decode .chip8 (beBytes w ++ rest) = .ok (c8Assemble k w, rest) := by
  show (decodeC8 c8Table (beWord (w.extractLsb' 8 8) (w.extractLsb' 0 8))).map (·, rest) = _
  rw [beWord_extract, decodeC8, h]
  rfl

theorem beBytes_beWord (hi lo : Byte) : beBytes (beWord hi lo) = [hi, lo] :=
  congrArg₂ (fun a b => [a, b]) (hiByte_pairUp hi lo) (loByte_pairUp hi lo)

theorem decode_chip8_ok {bytes rest : List Byte} {i : Instr} (h : decode .chip8 bytes = .ok (i, rest)) :
    ∃ w k, bytes = beBytes w ++ rest ∧ fetch c8Table w = some k ∧ i = c8Assemble k w := by
  match bytes with
  | [] | [_] => cases h
  | hi :: lo :: rest' =>
    simp only [decode, decodeC8] at h
    cases hk : fetch c8Table (beWord hi lo) with
    | none => rw [hk] at h; cases h
    | some k =>
      rw [hk] at h
      cases h
      exact ⟨beWord hi lo, k, by rw [beBytes_beWord]; rfl, hk, rfl⟩

/-! ## Opcode words by format (R82): the row that finds each word of a format, and only those -/

section Formats

variable {k : C8Op} {hi lo : BitVec 4} {kk : Byte} {v w : Word}

theorem fetch_word_iff (h : RowAt c8Table 0xFFFF v k) : fetch c8Table w = some k ↔ w = v :=
  (fetch_c8Table_iff h).trans (by rw [and_FFFF_eq_iff, BitVec.toNat_inj])

theorem fetch_word (h : RowAt c8Table 0xFFFF v k) : fetch c8Table v = some k :=
  (fetch_word_iff h).2 rfl

theorem fetch_wordNNN_iff (h : RowAt c8Table 0xF000 (wordNNN hi 0#12) k) :
    fetch c8Table w = some k ↔ w = wordNNN hi (fieldNNN w) :=
  (fetch_c8Table_iff h).trans and_F000_eq_wordNNN

theorem fetch_wordNNN (h : RowAt c8Table 0xF000 (wordNNN hi 0#12) k) (nnn : BitVec 12) :
    fetch c8Table (wordNNN hi nnn) = some k :=
  (fetch_wordNNN_iff h).2 (by simp)

theorem fetch_wordXS_byte_iff (h : RowAt c8Table 0xF000 (wordXS hi 0#4 0#8) k) :
    fetch c8Table w = some k ↔ w = wordXS hi (fieldX w) (fieldKK w) :=
  (fetch_c8Table_iff h).trans and_F000_eq_wordXS

theorem fetch_wordXS_byte (h : RowAt c8Table 0xF000 (wordXS hi 0#4 0#8) k) (x : BitVec 4) (n : Byte) :
    fetch c8Table (wordXS hi x n) = some k :=
  (fetch_wordXS_byte_iff h).2 (by simp)

theorem fetch_wordXS_iff (h : RowAt c8Table 0xF0FF (wordXS hi 0#4 kk) k) :
    fetch c8Table w = some k ↔ w = wordXS hi (fieldX w) kk :=
  (fetch_c8Table_iff h).trans and_F0FF_eq_wordXS

theorem fetch_wordXS (h : RowAt c8Table 0xF0FF (wordXS hi 0#4 kk) k) (x : BitVec 4) :
    fetch c8Table (wordXS hi x kk) = some k :=
  (fetch_wordXS_iff h).2 (by simp)

theorem fetch_wordXY_iff (h : RowAt c8Table 0xF00F (wordXY hi 0#4 0#4 lo) k) :
    fetch c8Table w = some k ↔ w = wordXY hi (fieldX w) (fieldY w) lo :=
  (fetch_c8Table_iff h).trans and_F00F_eq_wordXY

theorem fetch_wordXY (h : RowAt c8Table 0xF00F (wordXY hi 0#4 0#4 lo) k) (x y : BitVec 4) :
    fetch c8Table (wordXY hi x y lo) = some k :=
  (fetch_wordXY_iff h).2 (by simp)

theorem fetch_wordXY_nibble_iff (h : RowAt c8Table 0xF000 (wordXY hi 0#4 0#4 0#4) k) :
    fetch c8Table w = some k ↔ w = wordXY hi (fieldX w) (fieldY w) (fieldN w) :=
  (fetch_c8Table_iff h).trans and_F000_eq_wordXY

theorem fetch_wordXY_nibble (h : RowAt c8Table 0xF000 (wordXY hi 0#4 0#4 0#4) k) (x y n : BitVec 4) :
    fetch c8Table (wordXY hi x y n) = some k :=
  (fetch_wordXY_nibble_iff h).2 (by simp)

end Formats

/-! ## The round trips -/

/-- The word for which a row was found is the encoding of the instruction assembled from it. -/
theorem encode_c8Assemble {w : Word} {k : C8Op} (h : fetch c8Table w = some k) :
    encode (c8Assemble k w) = beBytes w := by
  cases k with
  | cls | ret => exact congrArg beBytes ((fetch_word_iff rfl).1 h).symm
  | jp | call | ldI | jpV0 => exact congrArg beBytes ((fetch_wordNNN_iff rfl).1 h).symm
  | seByte | sneByte | ldByte | addByte | rnd =>
    exact congrArg beBytes ((fetch_wordXS_byte_iff rfl).1 h).symm
  | skp | sknp | ldVxDt | ldVxK | ldDtVx | ldStVx | addI | ldF | ldB | storeRegs | loadRegs =>
    exact congrArg beBytes ((fetch_wordXS_iff rfl).1 h).symm
  | seReg | ldReg | orr | andd | xor | add | sub | shr | subn | shl | sneReg =>
    exact congrArg beBytes ((fetch_wordXY_iff rfl).1 h).symm
  | drw => exact congrArg beBytes ((fetch_wordXY_nibble_iff rfl).1 h).symm

/-- The encoding of a CHIP-8 instruction is a word that finds the row from which the instruction is assembled. -/
theorem fetch_encode_c8 {i : Instr} (harch : archOf i = .chip8) :
    ∃ w k, encode i = beBytes w ∧ fetch c8Table w = some k ∧ c8Assemble k w = i := by
  cases i with
  | c8Cls | c8Ret => exact ⟨_, _, rfl, fetch_word rfl, rfl⟩
  | c8Jp nnn | c8Call nnn | c8LdI nnn | c8JpV0 nnn =>
    refine ⟨_, _, rfl, fetch_wordNNN rfl nnn, ?_⟩
    simp [c8Assemble]
  | c8SeByte x kk | c8SneByte x kk | c8LdByte x kk | c8AddByte x kk | c8Rnd x kk =>
    refine ⟨_, _, rfl, fetch_wordXS_byte rfl x kk, ?_⟩
    simp [c8Assemble]
  | c8Skp x | c8Sknp x | c8LdVxDt x | c8LdVxK x | c8LdDtVx x | c8LdStVx x | c8AddI x | c8LdF x | c8LdB x
  | c8StoreRegs x | c8LoadRegs x =>
    refine ⟨_, _, rfl, fetch_wordXS rfl x, ?_⟩
    simp [c8Assemble]
  | c8SeReg x y | c8LdReg x y | c8Or x y | c8And x y | c8Xor x y | c8Add x y | c8Sub x y | c8Shr x y
  | c8Subn x y | c8Shl x y | c8SneReg x y =>
    refine ⟨_, _, rfl, fetch_wordXY rfl x y, ?_⟩
    simp [c8Assemble]
  | c8Drw x y n =>
    refine ⟨_, _, rfl, fetch_wordXY_nibble rfl x y n, ?_⟩
    simp [c8Assemble]
  | _ => cases harch

theorem decode_encode_c8 {i : Instr} (harch : archOf i = .chip8) (rest : List Byte) :
    decode .chip8 (encode i ++ rest) = .ok (i, rest) := by
  obtain ⟨w, k, hword, hfetch, hassemble⟩ := fetch_encode_c8 harch
  rw [hword, decode_beBytes hfetch, hassemble]

theorem wellFormed_of_c8 {i : Instr} (harch : archOf i = .chip8) : i.wellFormed = true := by
  cases i with
  | gbLdRR _ _ | gbPrefixCb _ => cases harch
  | _ => rfl

theorem encode_decode_c8 {bytes rest : List Byte} {i : Instr} (h : decode .chip8 bytes = .ok (i, rest)) :
    bytes = encode i ++ rest ∧ archOf i = .chip8 ∧ i.wellFormed = true := by
  obtain ⟨w, k, hbytes, hfetch, rfl⟩ := decode_chip8_ok h
  have harch := archOf_c8Assemble k w
  exact ⟨by rw [encode_c8Assemble hfetch, hbytes], harch, wellFormed_of_c8 harch⟩

end Sys2Proof.Machine

namespace Sys2Proof.Machine

/-! # GB bytes: decoding and encoding are inverse (30_encoding R85 to R91, R95) -/

/-! ## The index maps (R87, R88) -/

@[simp] theorem reg8Of_reg8Index (r : Reg8) : reg8Of (reg8Index r) = r := by cases r <;> rfl

@[simp] theorem pairOf_pairIndex (p : Pair) : pairOf (pairIndex p) = p := by cases p <;> rfl

@[simp] theorem stackPairOf_stackPairIndex (p : StackPair) : stackPairOf (stackPairIndex p) = p := by
  cases p <;> rfl

@[simp] theorem condOf_condIndex (cc : Cond) : condOf (condIndex cc) = cc := by cases cc <;> rfl

@[simp] theorem reg8Index_reg8Of (i : BitVec 3) : reg8Index (reg8Of i) = i := by
  revert i
  decide

@[simp] theorem pairIndex_pairOf (i : BitVec 2) : pairIndex (pairOf i) = i := by
  revert i
  decide

@[simp] theorem stackPairIndex_stackPairOf (i : BitVec 2) : stackPairIndex (stackPairOf i) = i := by
  revert i
  decide

@[simp] theorem condIndex_condOf (i : BitVec 2) : condIndex (condOf i) = i := by
  revert i
  decide

/-! ## Operand bytes (R89) -/

@[simp] theorem takeByte_cons (n : Byte) (rest : List Byte) (f : Byte → Instr) :
    takeByte (n :: rest) f = .ok (f n, rest) := rfl

@[simp] theorem takeWord_leBytes (nn : Word) (rest : List Byte) (f : Word → Instr) :
    takeWord (leBytes nn ++ rest) f = .ok (f nn, rest) :=
  congrArg (fun w => Except.ok (f w, rest)) (leWord_loByte_hiByte nn)

theorem takeByte_ok {bytes rest : List Byte} {f : Byte → Instr} {i : Instr}
    (h : takeByte bytes f = .ok (i, rest)) : ∃ n, bytes = n :: rest ∧ i = f n := by
  cases bytes with
  | nil => cases h
  | cons n bytes =>
    cases h
    exact ⟨n, rfl, rfl⟩

theorem leBytes_leWord (lo hi : Byte) : leBytes (leWord lo hi) = [lo, hi] :=
  congrArg₂ (fun a b => [a, b]) (loByte_pairUp hi lo) (hiByte_pairUp hi lo)

theorem takeWord_ok {bytes rest : List Byte} {f : Word → Instr} {i : Instr}
    (h : takeWord bytes f = .ok (i, rest)) : ∃ nn, bytes = leBytes nn ++ rest ∧ i = f nn := by
  match bytes with
  | [] | [_] => cases h
  | lo :: hi :: bytes =>
    cases h
    exact ⟨leWord lo hi, by rw [leBytes_leWord]; rfl, rfl⟩

/-! ## Opcode bytes by format -/

theorem decode_gb_cons {op : Byte} {k : GbOp} (h : fetch gbTable (op.setWidth 16) = some k)
    (operands : List Byte) : decode .gb (op :: operands) = gbAssemble k op operands := by
  simp only [decode, decodeGb, h]

theorem decode_gb_ok {bytes rest : List Byte} {i : Instr} (h : decode .gb bytes = .ok (i, rest)) :
    ∃ op operands k, bytes = op :: operands ∧ fetch gbTable (op.setWidth 16) = some k ∧
      gbAssemble k op operands = .ok (i, rest) := by
  cases bytes with
  | nil => cases h
  | cons op operands =>
    cases hk : fetch gbTable (op.setWidth 16) with
    | none => simp [decode, decodeGb, hk] at h
    | some k => exact ⟨op, operands, k, rfl, hk, decode_gb_cons hk operands ▸ h⟩

section Formats

variable {k : GbOp} {op v : Byte} {m : Word}

theorem RowAt.matches_gb (h : RowAt gbTable m (v.setWidth 16) k)
    (hfetch : fetch gbTable (op.setWidth 16) = some k) : op.setWidth 16 &&& m = v.setWidth 16 :=
  matches_of_fetch gbTable_handler h hfetch

theorem RowAt.fetch_gb (h : RowAt gbTable m (v.setWidth 16) k) (hk : k ≠ .ldRR)
    (hmatch : op.setWidth 16 &&& m = v.setWidth 16) : fetch gbTable (op.setWidth 16) = some k :=
  (fetch_gbTable_iff h).2 ⟨hmatch, fun hldRR => absurd hldRR hk⟩

theorem byte_of_fetch (h : RowAt gbTable 0x00FF (v.setWidth 16) k)
    (hfetch : fetch gbTable (op.setWidth 16) = some k) : op = v := by
  have hmatch := h.matches_gb hfetch
  rwa [and_00FF, setWidth_eq_iff] at hmatch

theorem fetch_byte (h : RowAt gbTable 0x00FF (v.setWidth 16) k) (hk : k ≠ .ldRR := by decide) :
    fetch gbTable (v.setWidth 16) = some k :=
  h.fetch_gb hk (and_00FF v)

theorem byteCC_of_fetch {hi lo : BitVec 3} (h : RowAt gbTable 0x00E7 ((byteCC hi 0#2 lo).setWidth 16) k)
    (hfetch : fetch gbTable (op.setWidth 16) = some k) :
    op = byteCC hi (condIndex (condOf (fieldCC op))) lo := by
  rw [condIndex_condOf]
  exact and_00E7_eq_byteCC.1 (h.matches_gb hfetch)

theorem fetch_byteCC {hi lo : BitVec 3} (h : RowAt gbTable 0x00E7 ((byteCC hi 0#2 lo).setWidth 16) k)
    (cc : BitVec 2) (hk : k ≠ .ldRR := by decide) : fetch gbTable ((byteCC hi cc lo).setWidth 16) = some k :=
  h.fetch_gb hk (and_00E7_eq_byteCC.2 (by simp))

theorem bytePP_of_fetch {hi : BitVec 2} {lo : BitVec 4} (h : RowAt gbTable 0x00CF ((bytePP hi 0#2 lo).setWidth 16) k)
    (hfetch : fetch gbTable (op.setWidth 16) = some k) : op = bytePP hi (pairIndex (pairOf (fieldPP op))) lo := by
  rw [pairIndex_pairOf]
  exact and_00CF_eq_bytePP.1 (h.matches_gb hfetch)

theorem byteSP_of_fetch {hi : BitVec 2} {lo : BitVec 4} (h : RowAt gbTable 0x00CF ((bytePP hi 0#2 lo).setWidth 16) k)
    (hfetch : fetch gbTable (op.setWidth 16) = some k) :
    op = bytePP hi (stackPairIndex (stackPairOf (fieldPP op))) lo := by
  rw [stackPairIndex_stackPairOf]
  exact and_00CF_eq_bytePP.1 (h.matches_gb hfetch)

theorem fetch_bytePP {hi : BitVec 2} {lo : BitVec 4} (h : RowAt gbTable 0x00CF ((bytePP hi 0#2 lo).setWidth 16) k)
    (pp : BitVec 2) (hk : k ≠ .ldRR := by decide) : fetch gbTable ((bytePP hi pp lo).setWidth 16) = some k :=
  h.fetch_gb hk (and_00CF_eq_bytePP.2 (by simp))

theorem byteD_of_fetch {hi : BitVec 2} {lo : BitVec 3} (h : RowAt gbTable 0x00C7 ((byteDS hi 0#3 lo).setWidth 16) k)
    (hfetch : fetch gbTable (op.setWidth 16) = some k) :
    op = byteDS hi (reg8Index (reg8Of (fieldD op))) lo := by
  rw [reg8Index_reg8Of]
  exact and_00C7_eq_byteDS.1 (h.matches_gb hfetch)

theorem fetch_byteD {hi : BitVec 2} {lo : BitVec 3} (h : RowAt gbTable 0x00C7 ((byteDS hi 0#3 lo).setWidth 16) k)
    (d : BitVec 3) (hk : k ≠ .ldRR := by decide) : fetch gbTable ((byteDS hi d lo).setWidth 16) = some k :=
  h.fetch_gb hk (and_00C7_eq_byteDS.2 (by simp))

theorem byteS_of_fetch {hi : BitVec 2} {d : BitVec 3} (h : RowAt gbTable 0x00F8 ((byteDS hi d 0#3).setWidth 16) k)
    (hfetch : fetch gbTable (op.setWidth 16) = some k) :
    op = byteDS hi d (reg8Index (reg8Of (fieldS op))) := by
  rw [reg8Index_reg8Of]
  exact and_00F8_eq_byteDS.1 (h.matches_gb hfetch)

theorem fetch_byteS {hi : BitVec 2} {d : BitVec 3} (h : RowAt gbTable 0x00F8 ((byteDS hi d 0#3).setWidth 16) k)
    (s : BitVec 3) (hk : k ≠ .ldRR := by decide) : fetch gbTable ((byteDS hi d s).setWidth 16) = some k :=
  h.fetch_gb hk (and_00F8_eq_byteDS.2 (by simp))

end Formats

/-! ## `LD r,r'` and `HALT` (R90) -/

theorem gbRowAt_ldRR : RowAt gbTable 0x00C0 ((byteDS 0x1#2 0#3 0#3).setWidth 16) .ldRR := rfl

/-- The one byte of the format of `LD r,r'` that is no `LD r,r'` is the one that would name `(HL)` twice. -/
theorem byteDS_eq_halt_iff {dst src : Reg8} :
    byteDS 0x1#2 (reg8Index dst) (reg8Index src) = 0x76 ↔ dst = .hlMem ∧ src = .hlMem := by
  refine ⟨fun h => ?_, fun ⟨hdst, hsrc⟩ => by rw [hdst, hsrc]; rfl⟩
  have hdst : reg8Of (fieldD (byteDS 0x1#2 (reg8Index dst) (reg8Index src))) = .hlMem := by rw [h]; rfl
  have hsrc : reg8Of (fieldS (byteDS 0x1#2 (reg8Index dst) (reg8Index src))) = .hlMem := by rw [h]; rfl
  exact ⟨by simpa using hdst, by simpa using hsrc⟩

theorem wellFormed_gbLdRR_iff {dst src : Reg8} :
    (Instr.gbLdRR dst src).wellFormed = true ↔ byteDS 0x1#2 (reg8Index dst) (reg8Index src) ≠ 0x76 := by
  rw [Ne, byteDS_eq_halt_iff]
  simp [Instr.wellFormed, imp_iff_not_or]

theorem fetch_gbLdRR {dst src : Reg8} (h : (Instr.gbLdRR dst src).wellFormed = true) :
    fetch gbTable ((byteDS 0x1#2 (reg8Index dst) (reg8Index src)).setWidth 16) = some .ldRR := by
  refine (fetch_gbTable_iff gbRowAt_ldRR).2 ⟨and_00C0_eq_byteDS.2 (by simp), fun _ h76 => ?_⟩
  rw [and_00FF] at h76
  exact wellFormed_gbLdRR_iff.1 h (setWidth_eq_iff.1 h76)

theorem byteDS_of_fetch_ldRR {op : Byte} (h : fetch gbTable (op.setWidth 16) = some .ldRR) :
    op = byteDS 0x1#2 (reg8Index (reg8Of (fieldD op))) (reg8Index (reg8Of (fieldS op))) := by
  rw [reg8Index_reg8Of, reg8Index_reg8Of]
  exact and_00C0_eq_byteDS.1 (gbRowAt_ldRR.matches_gb h)

theorem wellFormed_of_fetch_ldRR {op : Byte} (h : fetch gbTable (op.setWidth 16) = some .ldRR) :
    (Instr.gbLdRR (reg8Of (fieldD op)) (reg8Of (fieldS op))).wellFormed = true := by
  rw [wellFormed_gbLdRR_iff, ← byteDS_of_fetch_ldRR h]
  rintro rfl
  exact absurd h (by decide)

/-! ## CB sub-opcodes (R91, 47_gb_cb R270) -/

theorem fetch_cbTable_eq_none_iff (sub : Byte) : fetch cbTable (sub.setWidth 16) = none ↔ sub.toNat < 0x40 := by
  rw [fetch_cbTable]
  split_ifs <;> simp [*]

section CbRows

variable {k : CbOp} {hi : BitVec 2}

theorem byteDS_of_fetch_cb {sub : Byte} (h : RowAt cbTable 0x00C0 ((byteDS hi 0#3 0#3).setWidth 16) k)
    (hfetch : fetch cbTable (sub.setWidth 16) = some k) :
    sub = byteDS hi (fieldD sub) (reg8Index (reg8Of (fieldS sub))) := by
  rw [reg8Index_reg8Of]
  exact and_00C0_eq_byteDS.1 ((fetch_cbTable_iff h).1 hfetch)

theorem fetch_byteDS_cb (h : RowAt cbTable 0x00C0 ((byteDS hi 0#3 0#3).setWidth 16) k)
    (b s : BitVec 3) : fetch cbTable ((byteDS hi b s).setWidth 16) = some k :=
  (fetch_cbTable_iff h).2 (and_00C0_eq_byteDS.2 (by simp))

end CbRows

theorem encode_decodeCb (sub : Byte) :
    encode (decodeCb sub) = [0xCB, sub] ∧ archOf (decodeCb sub) = .gb ∧
      (decodeCb sub).wellFormed = true := by
  have hpair {sub' : Byte} (h : sub = sub') : [0xCB, sub'] = [0xCB, sub] := by rw [h]
  cases hfetch : fetch cbTable (sub.setWidth 16) with
  | none =>
    simp only [decodeCb, hfetch]
    exact ⟨rfl, rfl, decide_eq_true ((fetch_cbTable_eq_none_iff sub).1 hfetch)⟩
  | some k =>
    cases k with
    | bit | res | set =>
      simp only [decodeCb, hfetch]
      exact ⟨hpair (byteDS_of_fetch_cb rfl hfetch), rfl, rfl⟩

theorem decodeCb_gbPrefixCb {sub : Byte} (h : (Instr.gbPrefixCb sub).wellFormed = true) :
    decodeCb sub = .gbPrefixCb sub := by
  have hfetch : fetch cbTable (sub.setWidth 16) = none :=
    (fetch_cbTable_eq_none_iff sub).2 (of_decide_eq_true h)
  simp only [decodeCb, hfetch]

@[simp] theorem decodeCb_byteDS_bit (b : BitVec 3) (src : Reg8) :
    decodeCb (byteDS 0x1#2 b (reg8Index src)) = .gbBit b src := by
  simp [decodeCb, fetch_byteDS_cb (hi := 0x1#2) rfl]

@[simp] theorem decodeCb_byteDS_res (b : BitVec 3) (src : Reg8) :
    decodeCb (byteDS 0x2#2 b (reg8Index src)) = .gbRes b src := by
  simp [decodeCb, fetch_byteDS_cb (hi := 0x2#2) rfl]

@[simp] theorem decodeCb_byteDS_set (b : BitVec 3) (src : Reg8) :
    decodeCb (byteDS 0x3#2 b (reg8Index src)) = .gbSet b src := by
  simp [decodeCb, fetch_byteDS_cb (hi := 0x3#2) rfl]

/-! ## The round trips -/

/-- Bytes that a row assembles to an instruction are its encoding and the bytes after it. -/
theorem encode_gbAssemble {op : Byte} {k : GbOp} {operands rest : List Byte} {i : Instr}
    (hfetch : fetch gbTable (op.setWidth 16) = some k) (h : gbAssemble k op operands = .ok (i, rest)) :
    op :: operands = encode i ++ rest ∧ archOf i = .gb ∧ i.wellFormed = true := by
  cases k with
  | stop | halt | di | ei | ret | ldBcA | ldDeA | ldiHlA | lddHlA | ldABc | ldADe | ldiAHl | lddAHl =>
    cases h
    exact ⟨congrArg₂ List.cons (byte_of_fetch rfl hfetch) rfl, rfl, rfl⟩
  | jr | addN | adcN | subN | sbcN | andN | xorN | orN | cpN =>
    obtain ⟨n, rfl, rfl⟩ := takeByte_ok h
    exact ⟨congrArg₂ List.cons (byte_of_fetch rfl hfetch) rfl, rfl, rfl⟩
  | jp | call =>
    obtain ⟨nn, rfl, rfl⟩ := takeWord_ok h
    exact ⟨congrArg₂ List.cons (byte_of_fetch rfl hfetch) rfl, rfl, rfl⟩
  | prefixCb =>
    obtain ⟨sub, rfl, rfl⟩ := takeByte_ok h
    obtain ⟨hbytes, hcore⟩ := encode_decodeCb sub
    rw [hbytes]
    exact ⟨congrArg₂ List.cons (byte_of_fetch rfl hfetch) rfl, hcore⟩
  | jpCc =>
    obtain ⟨nn, rfl, rfl⟩ := takeWord_ok h
    exact ⟨congrArg₂ List.cons (byteCC_of_fetch rfl hfetch) rfl, rfl, rfl⟩
  | jrCc =>
    obtain ⟨e, rfl, rfl⟩ := takeByte_ok h
    exact ⟨congrArg₂ List.cons (byteCC_of_fetch rfl hfetch) rfl, rfl, rfl⟩
  | ldPairNn =>
    obtain ⟨nn, rfl, rfl⟩ := takeWord_ok h
    exact ⟨congrArg₂ List.cons (bytePP_of_fetch rfl hfetch) rfl, rfl, rfl⟩
  | addHl =>
    cases h
    exact ⟨congrArg₂ List.cons (bytePP_of_fetch rfl hfetch) rfl, rfl, rfl⟩
  | push | pop =>
    cases h
    exact ⟨congrArg₂ List.cons (byteSP_of_fetch rfl hfetch) rfl, rfl, rfl⟩
  | ldRN =>
    obtain ⟨n, rfl, rfl⟩ := takeByte_ok h
    exact ⟨congrArg₂ List.cons (byteD_of_fetch rfl hfetch) rfl, rfl, rfl⟩
  | addR | adcR | subR | sbcR | andR | xorR | orR | cpR =>
    cases h
    exact ⟨congrArg₂ List.cons (byteS_of_fetch rfl hfetch) rfl, rfl, rfl⟩
  | ldRR =>
    cases h
    exact ⟨congrArg₂ List.cons (byteDS_of_fetch_ldRR hfetch) rfl, rfl, wellFormed_of_fetch_ldRR hfetch⟩

/-- The opcode byte of a well-formed GB instruction finds the row that assembles the instruction from the operand
bytes behind it. -/
theorem fetch_encode_gb {i : Instr} (harch : archOf i = .gb) (hwf : i.wellFormed = true) (rest : List Byte) :
    ∃ op operands k, encode i ++ rest = op :: operands ∧ fetch gbTable (op.setWidth 16) = some k ∧
      gbAssemble k op operands = .ok (i, rest) := by
  cases i with
  | gbStop | gbHalt | gbDi | gbEi | gbRet | gbLdBcA | gbLdDeA | gbLdiHlA | gbLddHlA | gbLdABc | gbLdADe
  | gbLdiAHl | gbLddAHl | gbJr _ | gbAddN _ | gbAdcN _ | gbSubN _ | gbSbcN _ | gbAndN _ | gbXorN _ | gbOrN _
  | gbCpN _ =>
    exact ⟨_, _, _, rfl, fetch_byte rfl, rfl⟩
  | gbJp nn | gbCall nn => exact ⟨_, _, _, rfl, fetch_byte rfl, takeWord_leBytes nn rest _⟩
  | gbPrefixCb sub =>
    refine ⟨_, _, _, rfl, fetch_byte rfl, ?_⟩
    simp [gbAssemble, decodeCb_gbPrefixCb hwf]
  | gbBit b src | gbRes b src | gbSet b src =>
    refine ⟨_, _, _, rfl, fetch_byte rfl, ?_⟩
    simp [gbAssemble]
  | gbJpCc cc _ | gbJrCc cc _ =>
    refine ⟨_, _, _, rfl, fetch_byteCC rfl (condIndex cc), ?_⟩
    simp [gbAssemble]
  | gbLdPairNn pp _ | gbAddHl pp =>
    refine ⟨_, _, _, rfl, fetch_bytePP rfl (pairIndex pp), ?_⟩
    simp [gbAssemble]
  | gbPush pp | gbPop pp =>
    refine ⟨_, _, _, rfl, fetch_bytePP rfl (stackPairIndex pp), ?_⟩
    simp [gbAssemble]
  | gbLdRN dst _ =>
    refine ⟨_, _, _, rfl, fetch_byteD rfl (reg8Index dst), ?_⟩
    simp [gbAssemble]
  | gbAddR src | gbAdcR src | gbSubR src | gbSbcR src | gbAndR src | gbXorR src | gbOrR src | gbCpR src =>
    refine ⟨_, _, _, rfl, fetch_byteS rfl (reg8Index src), ?_⟩
    simp [gbAssemble]
  | gbLdRR dst src =>
    refine ⟨_, _, _, rfl, fetch_gbLdRR hwf, ?_⟩
    simp [gbAssemble]
  | _ => cases harch

theorem decode_encode_gb {i : Instr} (harch : archOf i = .gb) (hwf : i.wellFormed = true) (rest : List Byte) :
    decode .gb (encode i ++ rest) = .ok (i, rest) := by
  obtain ⟨op, operands, k, hbytes, hfetch, hassemble⟩ := fetch_encode_gb harch hwf rest
  rw [hbytes, decode_gb_cons hfetch, hassemble]

theorem encode_decode_gb {bytes rest : List Byte} {i : Instr} (h : decode .gb bytes = .ok (i, rest)) :
    bytes = encode i ++ rest ∧ archOf i = .gb ∧ i.wellFormed = true := by
  obtain ⟨op, operands, k, rfl, hfetch, hassemble⟩ := decode_gb_ok h
  exact encode_gbAssemble hfetch hassemble

end Sys2Proof.Machine

namespace Sys2Proof.Machine

/-! # The statements about the encoding (30_encoding) -/

/-- Settles O1: the opcode of an encoding finds the row of its instruction, whose fields read the operands back. -/
theorem decodeOfEncode : Obligations.DecodeOfEncode := by
  intro i rest hwf
  cases harch : archOf i with
  | chip8 => exact decode_encode_c8 harch rest
  | gb => exact decode_encode_gb harch hwf rest

/-- Settles O2: a row's pattern pins the fixed fields of its format, and the operands are the others. -/
theorem encodeOfDecode : Obligations.EncodeOfDecode := by
  intro arch bytes rest i h
  cases arch with
  | chip8 => exact encode_decode_c8 h
  | gb => exact encode_decode_gb h

/-- Settles O3: each word is the encoding of its instruction. -/
theorem writtenWordsDecode : Obligations.WrittenWordsDecode := by
  have word (i : Instr) (hwf : i.wellFormed = true) : decode (archOf i) (encode i) = .ok (i, []) := by
    simpa using decodeOfEncode i [] hwf
  exact ⟨word (.c8LdByte 0xA 0x12) rfl, word (.c8Call 0x300) rfl, word (.c8SeReg 1 2) rfl,
    word (.c8Add 0 1) rfl, word (.c8Shl 0 0) rfl, word (.c8Drw 0 1 5) rfl, word (.c8StoreRegs 2) rfl,
    word (.gbLdRN .a 0x12) rfl, word (.gbLdRR .b .a) rfl, word .gbHalt rfl, word (.gbLdPairNn .hl 0x1234) rfl,
    word (.gbAddR .a) rfl, word (.gbCpN 0x40) rfl, word (.gbAddHl .bc) rfl, word (.gbJpCc .z 0x0200) rfl,
    word (.gbPush .af) rfl, word (.gbBit 4 .a) rfl⟩

/-- Settles O5: the top nibble leaves the rows of one block, which the low nibble or the low byte tells apart. -/
theorem c8UnmatchedOpcodes : Obligations.C8UnmatchedOpcodes := by
  intro op
  have hlt := op.isLt
  simp only [fetch_eq_none_iff, c8Table, List.forall_mem_cons, Ne, and_FFFF_eq_iff, and_F000_eq_iff, and_F00F_eq_iff,
    and_F0FF_eq_iff, BitVec.reduceToNat, Nat.reduceMod, Nat.reduceDiv, and_true]
  generalize htop : op.toNat / 4096 = top
  have : top < 16 := by omega
  interval_cases top <;> simp <;> omega

/-- Settles O6: the main table is looked up at each of the 256 bytes, the CB table begins at 0x40. -/
theorem gbUnmatchedBytes : Obligations.GbUnmatchedBytes :=
  ⟨by decide, fetch_cbTable_eq_none_iff⟩

end Sys2Proof.Machine

namespace Sys2Proof.Machine

/-! # The machine that a handler is given (40_dispatch_tick R117 to R119) -/

section Put

variable {s : State} {b b' : C8Block} {g g' : GbBlock}

theorem C8Ready.put (hb : C8Ready s b) (b' : C8Block) : C8Ready (s.putC8 b') b' :=
  ⟨hb.1, Engine.active_putActive b' hb.2⟩

theorem GbReady.put (hg : GbReady s g) (g' : GbBlock) : GbReady (s.putGb g') g' :=
  ⟨hg.1, Engine.active_putActive g' hg.2⟩

theorem C8Ready.unique (hb : C8Ready s b) (hb' : C8Ready s b') : b' = b :=
  Option.some.inj (hb'.2.symm.trans hb.2)

theorem GbReady.unique (hg : GbReady s g) (hg' : GbReady s g') : g' = g :=
  Option.some.inj (hg'.2.symm.trans hg.2)

theorem C8Ready.not_gbReady (hb : C8Ready s b) : ¬ GbReady s g :=
  fun hg => nomatch hb.1.symm.trans hg.1

theorem C8Ready.done_put (hb : C8Ready s b) (b' : C8Block) : C8Done s (s.putC8 b') b' s.reply :=
  State.done_putC8 b' s.reply hb.2

theorem GbReady.done_put (hg : GbReady s g) (g' : GbBlock) : GbDone s (s.putGb g') g' s.reply :=
  State.done_putGb g' s.reply hg.2

end Put

/-! # The cases of a Tick, from what it finds (R118, R119, R121, R124) -/

section TickCases

variable {s : State} {b : C8Block} {g : GbBlock} {i : Instr}

theorem step_tickC8 (h : AboutToTick s) (harch : s.arch = .chip8) : step s = tickC8 s.taken := by
  have harch : s.taken.arch = .chip8 := harch
  rw [step_tick h, tick, harch]

theorem step_tickGb (h : AboutToTick s) (harch : s.arch = .gb) : step s = tickGb s.taken := by
  have harch : s.taken.arch = .gb := harch
  rw [step_tick h, tick, harch]

theorem tickC8_of_halted (hb : s.chip8.active = some b) (hhalt : b.status.run = .halted) :
    tickC8 s = .next (s.answer (.cycles 0)) := by
  simp [tickC8, hb, hhalt]

theorem tickGb_of_halted (hg : s.gb.active = some g) (hhalt : g.status.run = .halted) :
    tickGb s = .next (s.answer (.cycles 0)) := by
  simp [tickGb, hg, hhalt]

theorem tickC8_of_decoded (hb : s.chip8.active = some b) (hrun : b.status.run = .running)
    (hpc : b.pc.toNat ≤ 0xFFE) (hbuilt : s.chip8.tableBuilt = true) (hdec : decodeC8 c8Table b.opcode = .ok i) :
    tickC8 s = exec i (s.putC8 (b.dispatched b.opcode)) := by
  have hpc' : ¬ b.pc > 0xFFE := Nat.not_lt.2 hpc
  simp only [tickC8, hb, hrun, hpc', hbuilt, hdec, tableNow, if_true, if_false, reduceCtorEq]

theorem tickGb_of_decoded {rest : List Byte} (hg : s.gb.active = some g) (hrun : g.status.run = .running)
    (hbuilt : s.gb.tableBuilt = true) (hdec : decodeGb gbTable g.fetched = .ok (i, rest)) :
    tickGb s = exec i (s.putGb (g.dispatched g.opcode)) := by
  simp only [tickGb, hg, hrun, hbuilt, hdec, tableNow, if_true, if_false, reduceCtorEq]

theorem tick_of_no_context (h : s.arch = .chip8 ∧ s.chip8.active = none ∨ s.arch = .gb ∧ s.gb.active = none) :
    tick s = .refused .noContext := by
  obtain ⟨harch, hnone⟩ | ⟨harch, hnone⟩ := h
  · simp only [tick, harch, tickC8, hnone]
  · simp only [tick, harch, tickGb, hnone]

end TickCases

/-! ## What the bytes at `PC` decode to -/

theorem decodeC8_opcode {b : C8Block} {i : Instr} {rest : List Byte}
    (h : decode .chip8 b.opcodeBytes = .ok (i, rest)) : decodeC8 c8Table b.opcode = .ok i := by
  have hmap : (decodeC8 c8Table b.opcode).map (fun i => (i, ([] : List Byte))) = .ok (i, rest) := h
  cases hdec : decodeC8 c8Table b.opcode with
  | error r => rw [hdec] at hmap; cases hmap
  | ok j => rw [hdec] at hmap; cases hmap; rfl

/-- Two bytes after the opcode are enough for every row (30_encoding R89). -/
theorem gbAssemble_total (k : GbOp) (op n₁ n₂ : Byte) :
    ∃ i rest, gbAssemble k op [n₁, n₂] = .ok (i, rest) := by
  cases k <;> exact ⟨_, _, rfl⟩

/-- The bytes that a GB Tick reads are never cut short, so only the lookup can fail. -/
theorem fetch_of_decodeGb_error {g : GbBlock} {r : Reject} (h : decodeGb gbTable g.fetched = .error r) :
    fetch gbTable g.opcode = none := by
  cases hk : fetch gbTable g.opcode with
  | none => rfl
  | some k =>
    have hdec : decodeGb gbTable g.fetched = gbAssemble k _ _ := decode_gb_cons hk _
    obtain ⟨i, rest, hok⟩ := gbAssemble_total k (g.memRead g.pc) (g.memRead (g.pc + 1)) (g.memRead (g.pc + 2))
    cases h.symm.trans (hdec.trans hok)

theorem fetch_of_decodeGb_ok {g : GbBlock} {i : Instr} {rest : List Byte}
    (h : decodeGb gbTable g.fetched = .ok (i, rest)) : fetch gbTable g.opcode ≠ none := by
  obtain ⟨op, operands, k, hbytes, hk, -⟩ := decode_gb_ok (bytes := g.fetched) h
  obtain ⟨rfl, -⟩ := List.cons.inj hbytes
  exact fun hnone => nomatch hk.symm.trans hnone

/-- 0xCB stays an instruction of its own exactly when the second lookup fails (47_gb_cb R270, log 9). -/
theorem decodeGb_eq_gbPrefixCb_iff {g : GbBlock} {i : Instr} {rest : List Byte}
    (h : decodeGb gbTable g.fetched = .ok (i, rest)) :
    (∃ sub, i = .gbPrefixCb sub ∧ sub.toNat < 0x40) ↔
      g.memRead g.pc = 0xCB ∧ fetch cbTable ((g.memRead (g.pc + 1)).setWidth 16) = none := by
  constructor
  · rintro ⟨sub, rfl, hsub⟩
    obtain ⟨hbytes, -, -⟩ := encode_decode_gb (bytes := g.fetched) h
    obtain ⟨hop, hrest⟩ := List.cons.inj hbytes
    obtain ⟨rfl, -⟩ := List.cons.inj hrest
    exact ⟨hop, (fetch_cbTable_eq_none_iff _).2 hsub⟩
  · rintro ⟨hop, hnone⟩
    have hsub := (fetch_cbTable_eq_none_iff _).1 hnone
    have hwf : (Instr.gbPrefixCb (g.memRead (g.pc + 1))).wellFormed = true := decide_eq_true hsub
    have hbytes : g.fetched = encode (.gbPrefixCb (g.memRead (g.pc + 1))) ++ [g.memRead (g.pc + 2)] := by
      rw [GbBlock.fetched, hop]
      rfl
    have hdec : decodeGb gbTable g.fetched = .ok (.gbPrefixCb (g.memRead (g.pc + 1)), [g.memRead (g.pc + 2)]) :=
      hbytes ▸ decode_encode_gb rfl hwf _
    cases h.symm.trans hdec
    exact ⟨_, rfl, hsub⟩

/-! ## The statements about one case of a Tick -/

/-- Settles O7: the bytes at `PC` decode as the raw opcode does, and the handler starts from the block dispatched. -/
theorem stepRunsDecodedC8 : Obligations.StepRunsDecodedC8 := by
  intro s b i htick hb hrun hbuilt hpc hdec
  obtain ⟨-, -, hwf⟩ := encode_decode_c8 hdec
  have hb := c8Ready_taken hb
  have hstep : step s = exec i (s.taken.putC8 (b.dispatched b.opcode)) := by
    rw [step_tickC8 htick hb.1]
    exact tickC8_of_decoded hb.2 hrun hpc hbuilt (decodeC8_opcode hdec)
  exact ⟨b.dispatched b.opcode, _, rfl, hb.done_put _, hb.put _, hwf, hstep⟩

/-- Settles O8: as for CHIP-8, with the operand bytes read behind the opcode byte (log 8). -/
theorem stepRunsDecodedGb : Obligations.StepRunsDecodedGb := by
  intro s g i rest htick hg hrun hbuilt hdec
  obtain ⟨-, -, hwf⟩ := encode_decode_gb hdec
  have hg := gbReady_taken hg
  have hstep : step s = exec i (s.taken.putGb (g.dispatched g.opcode)) := by
    rw [step_tickGb htick hg.1]
    exact tickGb_of_decoded hg.2 hrun hbuilt hdec
  exact ⟨g.dispatched g.opcode, _, rfl, hg.done_put _, hg.put _, hwf, hstep⟩

/-- Settles O12: the first test of a Tick is whether the session has halted (R121). -/
theorem haltedTickChangesNothing : Obligations.HaltedTickChangesNothing := by
  constructor
  · intro s b htick hb hhalt
    rw [step_tickC8 htick hb.1]
    exact tickC8_of_halted (c8Ready_taken hb).2 hhalt
  · intro s g htick hg hhalt
    rw [step_tickGb htick hg.1]
    exact tickGb_of_halted (gbReady_taken hg).2 hhalt

/-- Settles O60: each of these operations first asks for the active block of its core. -/
theorem refusedWithoutContext : Obligations.RefusedWithoutContext := by
  intro s hnone hop
  have hnone' : s.taken.arch = .chip8 ∧ s.taken.chip8.active = none ∨
      s.taken.arch = .gb ∧ s.taken.gb.active = none := hnone
  obtain htick | ⟨image, hload⟩ | ⟨code, hkey⟩ | ⟨htimer, harch⟩ := hop
  · rw [step_tick htick, tick_of_no_context hnone']
  · rw [step_eq, hload]
    obtain ⟨harch, hactive⟩ | ⟨harch, hactive⟩ := hnone'
    · simp only [perform, loadProgram, harch, hactive]
    · simp only [perform, loadProgram, harch, hactive]
  · rw [step_eq, hkey]
    obtain ⟨harch, hactive⟩ | ⟨harch, hactive⟩ := hnone'
    · simp only [perform, setKeyboardValue, harch, hactive]
    · simp only [perform, setKeyboardValue, harch, hactive]
  · have harch' : s.taken.arch = .chip8 := harch
    obtain ⟨-, hactive⟩ | ⟨hgb, -⟩ := hnone'
    · rw [step_eq, htimer]
      simp only [perform, timerTick, harch', hactive]
    · cases harch'.symm.trans hgb

end Sys2Proof.Machine

namespace Sys2Proof.Machine

/-! # What a handler reports (40_dispatch_tick R117, R122, R125) -/

/-! ## CHIP-8 handlers -/

theorem c8Guard_bind_ok {base : Word} {n : Nat} {b b' : C8Block} {f : C8Block → C8Block}
    (h : (do let b ← c8Guard base n b; .ok (f b)) = Except.ok b') : b' = f b := by
  obtain ⟨hok, -⟩ | ⟨r, hraise⟩ := c8Guard_cases base n b
  · rw [hok] at h
    exact (Except.ok.inj h).symm
  · rw [hraise] at h
    cases h

/-- A CHIP-8 instruction is the run of a handler that writes no status register; `RND` draws a byte first (R117,
42_chip8_alu R173). -/
theorem exec_c8_handler {i : Instr} (harch : archOf i = .chip8) (s : State) :
    ∃ f d, exec i s = State.runC8 { s with draws := d } f ∧ ((∀ x kk, i ≠ .c8Rnd x kk) → d = s.draws) ∧
      ∀ b b', f b = .ok b' → b'.status = b.status := by
  unfold exec
  cases i with
  | c8Cls | c8Jp _ | c8JpV0 _ | c8LdByte _ _ | c8AddByte _ _ | c8LdReg _ _ | c8Or _ _ | c8And _ _ | c8Xor _ _
  | c8Add _ _ | c8Sub _ _ | c8Shr _ _ | c8Subn _ _ | c8Shl _ _ | c8LdI _ | c8AddI _ | c8LdF _ | c8LdVxDt _
  | c8LdDtVx _ | c8LdStVx _ =>
    refine ⟨_, s.draws, by rfl, fun _ => rfl, fun b b' h => ?_⟩
    cases h
    rfl
  | c8Rnd x kk =>
    refine ⟨_, s.draws + 1, by rfl, fun hne => absurd rfl (hne x kk), fun b b' h => ?_⟩
    cases h
    rfl
  | c8SeByte _ _ | c8SneByte _ _ | c8SeReg _ _ | c8SneReg _ _ | c8Skp _ | c8Sknp _ =>
    refine ⟨_, s.draws, by rfl, fun _ => rfl, fun b b' h => ?_⟩
    cases h
    exact (C8Keeps.skipIf b _ .status).resolve_left (by decide)
  | c8Ret | c8Call _ | c8LdVxK _ =>
    refine ⟨_, s.draws, by rfl, fun _ => rfl, fun b b' h => ?_⟩
    split at h <;> cases h <;> rfl
  | c8Drw _ _ _ | c8LdB _ | c8StoreRegs _ =>
    refine ⟨_, s.draws, by rfl, fun _ => rfl, fun b b' h => ?_⟩
    obtain rfl := c8Guard_bind_ok h
    rfl
  | c8LoadRegs _ =>
    refine ⟨_, s.draws, by rfl, fun _ => rfl, fun b b' h => ?_⟩
    obtain rfl := c8Guard_bind_ok h
    exact (C8Keeps.loadRegs b _ .status).resolve_left (by decide)
  | _ => cases harch

/-- A handler that ends normally reports 1 and leaves the status; a raise reports 0 and halts (R118). -/
theorem exec_c8_reply {i : Instr} {s t : State} {b : C8Block} (hb : C8Ready s b) (h : exec i s = .next t) :
    ∃ b', C8Ready t b' ∧
      ((t.reply = .cycles 1 ∧ b'.status = b.status) ∨ (t.reply = .cycles 0 ∧ b'.status.run = .halted)) := by
  obtain ⟨f, d, hexec, -, hstatus⟩ := exec_c8_handler (archOf_of_c8Ready hb h) s
  have hb : C8Ready { s with draws := d } b := hb
  obtain ⟨c, hc, hends⟩ := State.runC8_next (hexec.symm.trans h)
  obtain rfl := hb.unique hc
  obtain ⟨b', hok, rfl⟩ | ⟨r, -, rfl⟩ := hends
  · exact ⟨b', hb.put b', .inl ⟨rfl, hstatus _ _ hok⟩⟩
  · exact ⟨_, hb.put _, .inr ⟨rfl, rfl⟩⟩

/-! ## GB handlers -/

/-- What an instruction reports when it runs on a block: its entry of R125's table, and 0 for a halt. Behind 0xCB
the sub-opcode selects the entry (47_gb_cb R270). -/
def gbCount (c : GbCycles) (g : GbBlock) (i : Instr) : Nat :=
  match i with
  | .gbLdRR dst src => c.ofLdRR dst src
  | .gbLdRN dst _ => c.ofLdRN dst
  | .gbLdPairNn _ _ => c.ldPairNn
  | .gbLdBcA | .gbLdDeA | .gbLdABc | .gbLdADe => c.ldIndirect
  | .gbLdiHlA | .gbLddHlA | .gbLdiAHl | .gbLddAHl => c.ldiLdd
  | .gbPush _ => c.push
  | .gbPop _ => c.pop
  | .gbAddR src | .gbAdcR src | .gbSubR src | .gbSbcR src | .gbAndR src | .gbXorR src | .gbOrR src
  | .gbCpR src => c.ofAluR src
  | .gbAddN _ | .gbAdcN _ | .gbSubN _ | .gbSbcN _ | .gbAndN _ | .gbXorN _ | .gbOrN _ | .gbCpN _ => c.aluN
  | .gbAddHl _ => c.addHl
  | .gbJp _ => c.jp
  | .gbJpCc cc _ => c.ofJpCc (g.cond cc)
  | .gbJr _ => c.jr
  | .gbJrCc cc _ => c.ofJrCc (g.cond cc)
  | .gbCall _ => c.call
  | .gbRet => c.ret
  | .gbDi | .gbEi => c.diEi
  | .gbBit _ src => c.ofBit src
  | .gbRes _ src | .gbSet _ src => c.ofResSet src
  | .gbPrefixCb sub =>
    if sub.toNat < 0x40 then cyclesHalt
    else if sub.toNat < 0x80 then c.ofBit (reg8Of (fieldS sub))
    else c.ofResSet (reg8Of (fieldS sub))
  | .gbStop | .gbHalt
  | .c8Cls | .c8Ret | .c8Jp _ | .c8Call _ | .c8SeByte _ _ | .c8SneByte _ _ | .c8SeReg _ _ | .c8LdByte _ _
  | .c8AddByte _ _ | .c8LdReg _ _ | .c8Or _ _ | .c8And _ _ | .c8Xor _ _ | .c8Add _ _ | .c8Sub _ _ | .c8Shr _ _
  | .c8Subn _ _ | .c8Shl _ _ | .c8SneReg _ _ | .c8LdI _ | .c8JpV0 _ | .c8Rnd _ _ | .c8Drw _ _ _ | .c8Skp _
  | .c8Sknp _ | .c8LdVxDt _ | .c8LdVxK _ | .c8LdDtVx _ | .c8LdStVx _ | .c8AddI _ | .c8LdF _ | .c8LdB _
  | .c8StoreRegs _ | .c8LoadRegs _ => cyclesHalt

theorem State.runGb_reply {s t : State} {g : GbBlock} {f : GbBlock → GbBlock × Nat} (hg : GbReady s g)
    (h : s.runGb f = .next t) : t.reply = .cycles (f g).2 := by
  obtain ⟨g', hg', rfl⟩ := State.runGb_next h
  obtain rfl := hg.unique hg'
  rfl

section GbReply

variable {i : Instr} {s t : State} {g g' : GbBlock}

theorem exec_gb_reply (hg : GbReady s g) (h : exec i s = .next t) :
    t.reply = .cycles (gbCount s.gbParams.cycles g i) := by
  have harch := archOf_of_gbReady hg h
  unfold exec at h
  cases i with
  | gbPrefixCb sub =>
    have hreply := State.runGb_reply hg h
    simp only [fetch_cbTable] at hreply
    by_cases h40 : sub.toNat < 0x40
    · simp only [gbCount, h40, if_true] at hreply ⊢
      exact hreply
    by_cases h80 : sub.toNat < 0x80
    · simp only [gbCount, h40, h80, if_true, if_false] at hreply ⊢
      exact hreply
    by_cases hC0 : sub.toNat < 0xC0
    · simp only [gbCount, h40, h80, hC0, if_true, if_false] at hreply ⊢
      exact hreply
    · simp only [gbCount, h40, h80, hC0, if_false] at hreply ⊢
      exact hreply
  | gbStop | gbHalt | gbDi | gbEi | gbJp _ | gbJr _ | gbJpCc _ _ | gbJrCc _ _ | gbCall _ | gbRet
  | gbLdBcA | gbLdDeA | gbLdiHlA | gbLddHlA | gbLdABc | gbLdADe | gbLdiAHl | gbLddAHl | gbLdPairNn _ _
  | gbAddN _ | gbAdcN _ | gbSubN _ | gbSbcN _ | gbAndN _ | gbXorN _ | gbOrN _ | gbCpN _ | gbAddHl _
  | gbAddR _ | gbAdcR _ | gbSubR _ | gbSbcR _ | gbAndR _ | gbXorR _ | gbOrR _ | gbCpR _
  | gbPush _ | gbPop _ | gbLdRN _ _ | gbLdRR _ _ | gbBit _ _ | gbRes _ _ | gbSet _ _ =>
    exact State.runGb_reply hg h
  | _ => cases harch

/-- The instructions that report 0 are those that write the status (R117, R125). -/
theorem gbCount_eq_zero_iff (harch : archOf i = .gb) (c : GbCycles) :
    gbCount c g i = 0 ↔ .status ∈ gbWrites i := by
  cases i with
  | gbStop | gbHalt => simp [gbCount, gbWrites, cyclesHalt]
  | gbPrefixCb sub =>
    by_cases h40 : sub.toNat < 0x40
    · simp [gbCount, gbWrites, cyclesHalt, h40]
    by_cases h80 : sub.toNat < 0x80
    · simp [gbCount, gbWrites, h40, h80, Nat.ne_of_gt]
    · simp [gbCount, gbWrites, h40, h80, Nat.ne_of_gt]
  | gbDi | gbEi | gbJp _ | gbJr _ | gbJpCc _ _ | gbJrCc _ _ | gbCall _ | gbRet
  | gbLdBcA | gbLdDeA | gbLdiHlA | gbLddHlA | gbLdABc | gbLdADe | gbLdiAHl | gbLddAHl | gbLdPairNn _ _
  | gbAddN _ | gbAdcN _ | gbSubN _ | gbSbcN _ | gbAndN _ | gbXorN _ | gbOrN _ | gbCpN _ | gbAddHl _
  | gbAddR _ | gbAdcR _ | gbSubR _ | gbSbcR _ | gbAndR _ | gbXorR _ | gbOrR _ | gbCpR _
  | gbPush _ | gbPop _ | gbLdRN _ _ | gbLdRR _ _ | gbBit _ _ | gbRes _ _ | gbSet _ _ =>
    exact iff_of_false (Nat.ne_of_gt (by simp [gbCount])) (by simp [gbWrites])
  | _ => cases harch

/-- What an instruction does to the status: nothing, the halt of `HALT` and `STOP`, or the halt of an unmatched
sub-opcode (46_gb_control R260, R261, 47_gb_cb R270). -/
theorem exec_gb_status (hg : GbReady s g) (h : exec i s = .next t) (hg' : GbReady t g') :
    (.status ∉ gbWrites i ∧ g'.status = g.status) ∨
      ((i = .gbHalt ∨ i = .gbStop) ∧ ∃ info, g'.status = g.status.halt .haltInstruction info) ∨
      ∃ sub, i = .gbPrefixCb sub ∧ sub.toNat < 0x40 ∧ g'.status = g.status.invalid (pairUp 0xCB sub) := by
  by_cases hw : .status ∈ gbWrites i
  · right
    obtain rfl | rfl | ⟨sub, rfl, hsub⟩ := status_mem_gbWrites hw
    · exact .inl ⟨.inl rfl, _, congrArg GbBlock.status (State.runGb_block hg h hg')⟩
    · exact .inl ⟨.inr rfl, _, congrArg GbBlock.status (State.runGb_block hg h hg')⟩
    · obtain ⟨-, rfl⟩ | ⟨h40, -⟩ | ⟨h80, -⟩ := exec_gbPrefixCb_block hg h hg'
      · exact .inr ⟨sub, rfl, hsub, rfl⟩
      · omega
      · omega
  · exact .inl ⟨hw, (exec_gb_keeps hg h hg' .status).resolve_left hw⟩

/-- An instruction reports 0 exactly when it leaves the session halted. -/
theorem exec_gb_halted_iff (hg : GbReady s g) (hrun : g.status.run = .running) (h : exec i s = .next t)
    (hg' : GbReady t g') : gbCount s.gbParams.cycles g i = 0 ↔ g'.status.run = .halted := by
  rw [gbCount_eq_zero_iff (archOf_of_gbReady hg h)]
  obtain ⟨hw, hsame⟩ | ⟨hi, _, hhalt⟩ | ⟨sub, rfl, hsub, hinvalid⟩ := exec_gb_status hg h hg'
  · exact iff_of_false hw (by simp [hsame, hrun])
  · exact iff_of_true (by obtain rfl | rfl := hi <;> simp [gbWrites]) (by simp [hhalt])
  · exact iff_of_true (by simp [gbWrites, hsub]) (by simp [hinvalid])

/-- Only the halt of an unmatched sub-opcode puts the sentinel in place of the recorded opcode (R123). -/
theorem exec_gb_lastInstruction (hg : GbReady s g) (h : exec i s = .next t) (hg' : GbReady t g') :
    ((¬ ∃ sub, i = .gbPrefixCb sub ∧ sub.toNat < 0x40) ∧ g'.status.lastInstruction = g.status.lastInstruction) ∨
      ((∃ sub, i = .gbPrefixCb sub ∧ sub.toNat < 0x40) ∧ g'.status.lastInstruction = Config.lastInvalid) := by
  obtain ⟨hw, hsame⟩ | ⟨hi, _, hhalt⟩ | ⟨sub, hi, hsub, hinvalid⟩ := exec_gb_status hg h hg'
  · refine .inl ⟨?_, by rw [hsame]⟩
    rintro ⟨sub, rfl, hsub⟩
    exact hw (by simp [gbWrites, hsub])
  · refine .inl ⟨?_, by rw [hhalt, Status.halt_lastInstruction]⟩
    rintro ⟨sub, rfl, -⟩
    simp at hi
  · exact .inr ⟨⟨sub, hi, hsub⟩, by rw [hinvalid, Status.invalid_lastInstruction]⟩

end GbReply

/-- Settles O55: the count is the instruction's row of the table, and reset carries the defaults. -/
theorem gbCycleCounts : Obligations.GbCycleCounts := by
  constructor
  · rintro i s t g c n hg h rfl hrow
    rw [exec_gb_reply hg h]
    simp only [List.mem_cons, List.not_mem_nil, or_false] at hrow
    obtain ⟨dst, r, rfl, rfl⟩ | ⟨dst, v, rfl, rfl⟩ | ⟨p, nn, rfl, rfl⟩ |
      ⟨rfl | rfl | rfl | rfl, rfl⟩ | ⟨rfl | rfl | rfl | rfl, rfl⟩ | ⟨p, rfl, rfl⟩ | ⟨p, rfl, rfl⟩ |
      ⟨r, rfl | rfl | rfl | rfl | rfl | rfl | rfl | rfl, rfl⟩ |
      ⟨v, rfl | rfl | rfl | rfl | rfl | rfl | rfl | rfl, rfl⟩ | ⟨rfl | rfl, rfl⟩ | ⟨p, rfl, rfl⟩ |
      ⟨nn, rfl, rfl⟩ | ⟨cc, nn, rfl, rfl⟩ | ⟨e, rfl, rfl⟩ | ⟨cc, e, rfl, rfl⟩ | ⟨nn, rfl, rfl⟩ | ⟨rfl, rfl⟩ |
      ⟨rfl | rfl, rfl⟩ | ⟨k, r, rfl, rfl⟩ | ⟨k, r, rfl | rfl, rfl⟩ := hrow
    all_goals rfl
  · rintro c rfl
    decide

end Sys2Proof.Machine

namespace Sys2Proof.Machine

/-! # What a Tick leaves in the reply and in `lastInstruction` (40_dispatch_tick R122, R123) -/

section TickResult

variable {s t : State}

theorem tickC8_reply (harch : s.arch = .chip8) (h : tickC8 s = .next t) :
    ∃ n b, C8Ready t b ∧ t.reply = .cycles n ∧ (n = 0 ↔ b.status.run = .halted) := by
  obtain ⟨b, hactive, hcases⟩ := tickC8_next h
  have hb : C8Ready s b := ⟨harch, hactive⟩
  obtain ⟨hhalt, rfl⟩ | ⟨-, -, rfl⟩ | ⟨-, -, -, rfl⟩ | ⟨k, hrun, -, -, -, hexec⟩ := hcases
  · exact ⟨0, b, hb, rfl, by simp [hhalt]⟩
  · exact ⟨0, _, hb.put _, rfl, iff_of_true rfl rfl⟩
  · exact ⟨0, _, hb.put _, rfl, iff_of_true rfl rfl⟩
  · obtain ⟨b', hb', ⟨hreply, hsame⟩ | ⟨hreply, hhalt⟩⟩ := exec_c8_reply (hb.put _) hexec
    · exact ⟨1, b', hb', hreply, by simp [hsame, hrun]⟩
    · exact ⟨0, b', hb', hreply, by simp [hhalt]⟩

theorem tickGb_reply (harch : s.arch = .gb) (h : tickGb s = .next t) :
    ∃ n g, GbReady t g ∧ t.reply = .cycles n ∧ (n = 0 ↔ g.status.run = .halted) := by
  obtain ⟨g, hactive, hcases⟩ := tickGb_next h
  have hg : GbReady s g := ⟨harch, hactive⟩
  obtain ⟨hhalt, rfl⟩ | ⟨-, -, rfl⟩ | ⟨i, rest, hrun, -, -, hexec⟩ := hcases
  · exact ⟨0, g, hg, rfl, by simp [hhalt]⟩
  · exact ⟨0, _, hg.put _, rfl, iff_of_true rfl rfl⟩
  · have hg₀ := hg.put (g.dispatched g.opcode)
    obtain ⟨g', hg'⟩ : ∃ g', GbReady t g' := by
      obtain ⟨-, _, _, _, _, hb, -⟩ | ⟨-, g₁, g', _, hg₁, rfl⟩ := exec_next hexec
      · exact absurd hg₀ hb.not_gbReady
      · exact ⟨g', hg₁.put g'⟩
    exact ⟨_, g', hg', exec_gb_reply hg₀ hexec, exec_gb_halted_iff hg₀ hrun hexec hg'⟩

theorem tickC8_lastInstruction {b b' : C8Block} (hb : C8Ready s b) (h : tickC8 s = .next t)
    (hb' : C8Ready t b') :
    b'.status.lastInstruction =
      if b.status.run = .halted then b.status.lastInstruction
      else if b.pc.toNat ≤ 0xFFE ∧ s.chip8.tableBuilt = true ∧ fetch c8Table b.opcode ≠ none then b.opcode
      else 0xFFFF := by
  obtain ⟨c, hactive, hcases⟩ := tickC8_next h
  obtain rfl := hb.unique ⟨hb.1, hactive⟩
  obtain ⟨hhalt, rfl⟩ | ⟨hrun, hpc, rfl⟩ | ⟨hrun, -, hnone, rfl⟩ | ⟨k, hrun, hpc, hbuilt, hfetch, hexec⟩ := hcases
  · rw [if_pos hhalt, hb.unique hb']
  · obtain rfl := (hb.put _).unique hb'
    rw [if_neg (by simp [hrun]), if_neg (by omega)]
    rfl
  · obtain rfl := (hb.put _).unique hb'
    have hno : ¬ (s.chip8.tableBuilt = true ∧ fetch c8Table c.opcode ≠ none) := by
      rintro ⟨hbuilt, hsome⟩
      obtain hempty | hmiss := hnone
      · cases hempty.symm.trans hbuilt
      · exact hsome hmiss
    rw [if_neg (by simp [hrun]), if_neg fun ⟨_, hfound⟩ => hno hfound]
    rfl
  · rw [if_neg (by simp [hrun]), if_pos ⟨hpc, hbuilt, by simp [hfetch]⟩]
    obtain hsame | ⟨-, info, hhalt⟩ := exec_c8_status (hb.put _) hexec hb'
    · rw [hsame]
      rfl
    · rw [hhalt]
      rfl

theorem tickGb_lastInstruction {g g' : GbBlock} (hg : GbReady s g) (h : tickGb s = .next t)
    (hg' : GbReady t g') :
    g'.status.lastInstruction =
      if g.status.run = .halted then g.status.lastInstruction
      else if s.gb.tableBuilt = true ∧ fetch gbTable ((g.memRead g.pc).setWidth 16) ≠ none ∧
        (g.memRead g.pc = 0xCB → fetch cbTable ((g.memRead (g.pc + 1)).setWidth 16) ≠ none)
      then (g.memRead g.pc).setWidth 16
      else 0xFFFF := by
  obtain ⟨c, hactive, hcases⟩ := tickGb_next h
  obtain rfl := hg.unique ⟨hg.1, hactive⟩
  obtain ⟨hhalt, rfl⟩ | ⟨hrun, hnone, rfl⟩ | ⟨i, rest, hrun, hbuilt, hdec, hexec⟩ := hcases
  · rw [if_pos hhalt, hg.unique hg']
  · obtain rfl := (hg.put _).unique hg'
    have hno : ¬ (s.gb.tableBuilt = true ∧ fetch gbTable c.opcode ≠ none) := by
      rintro ⟨hbuilt, hsome⟩
      obtain hempty | ⟨r, herror⟩ := hnone
      · cases hempty.symm.trans hbuilt
      · exact hsome (fetch_of_decodeGb_error herror)
    rw [if_neg (by simp [hrun]), if_neg fun ⟨hbuilt, hsome, _⟩ => hno ⟨hbuilt, hsome⟩]
    rfl
  · have hsub := decodeGb_eq_gbPrefixCb_iff hdec
    have hfetch := fetch_of_decodeGb_ok hdec
    rw [if_neg (by simp [hrun])]
    obtain ⟨hmatched, hsame⟩ | ⟨hunmatched, hinvalid⟩ := exec_gb_lastInstruction (hg.put _) hexec hg'
    · rw [if_pos ⟨hbuilt, hfetch, fun hop hnone => hmatched (hsub.2 ⟨hop, hnone⟩)⟩, hsame]
      rfl
    · obtain ⟨hop, hnone⟩ := hsub.1 hunmatched
      rw [if_neg fun ⟨_, _, hsome⟩ => hsome hop hnone, hinvalid]
      rfl

end TickResult

/-- Settles O13: each way a Tick ends reports 0 if it halts or finds the session halted, and only then. -/
theorem replyZeroIffHalted : Obligations.ReplyZeroIffHalted := by
  intro s t htick h
  cases harch : s.arch with
  | chip8 =>
    rw [step_tickC8 htick harch] at h
    obtain ⟨n, b, hb, hreply, hzero⟩ := tickC8_reply (s := s.taken) harch h
    exact ⟨n, hreply, fun b' hb' => hb.unique hb' ▸ hzero, fun g hg => absurd hg hb.not_gbReady⟩
  | gb =>
    rw [step_tickGb htick harch] at h
    obtain ⟨n, g, hg, hreply, hzero⟩ := tickGb_reply (s := s.taken) harch h
    exact ⟨n, hreply, fun b hb => absurd hg hb.not_gbReady, fun g' hg' => hg.unique hg' ▸ hzero⟩

/-- Settles O14: the record is written after the lookup and only the halt of an unmatched sub-opcode changes it. -/
theorem lastInstructionRecorded : Obligations.LastInstructionRecorded := by
  constructor
  · intro s t b b' htick hb h hb'
    rw [step_tickC8 htick hb.1] at h
    exact tickC8_lastInstruction (s := s.taken) hb h hb'
  · intro s t g g' htick hg h hg'
    rw [step_tickGb htick hg.1] at h
    exact tickGb_lastInstruction (s := s.taken) hg h hg'

end Sys2Proof.Machine

namespace Sys2Proof.Machine

/-! # What a handler and a host operation leave alone (40_dispatch_tick R117, 60_exceptions R291) -/

section Frame

variable {s t : State}

/-- Two states of a machine have the same parameters `ARCH`, `GB_RESET` and `GB_CYCLES` (00_scope R6). -/
def State.SameParams (s t : State) : Prop := t.arch = s.arch ∧ t.gbParams = s.gbParams

theorem exec_draws {i : Instr} (harch : archOf i = .chip8) (hi : ∀ x kk, i ≠ .c8Rnd x kk)
    (h : exec i s = .next t) : t.draws = s.draws := by
  obtain ⟨f, d, hexec, hdraws, -⟩ := exec_c8_handler harch s
  obtain ⟨_, _, _, -, rfl⟩ := State.runC8_put (hexec.symm.trans h)
  exact hdraws hi

theorem exec_sameParams {i : Instr} (h : exec i s = .next t) : s.SameParams t := by
  obtain ⟨-, _, _, _, _, -, rfl⟩ | ⟨-, _, _, _, -, rfl⟩ := exec_next h
  · exact ⟨rfl, rfl⟩
  · exact ⟨rfl, rfl⟩

theorem tickC8_sameParams (h : tickC8 s = .next t) : s.SameParams t := by
  obtain ⟨b, -, ⟨-, rfl⟩ | ⟨-, -, rfl⟩ | ⟨-, -, -, rfl⟩ | ⟨k, -, -, -, -, hexec⟩⟩ := tickC8_next h
  · exact ⟨rfl, rfl⟩
  · exact ⟨rfl, rfl⟩
  · exact ⟨rfl, rfl⟩
  · exact exec_sameParams (s := s.putC8 _) hexec

theorem tickGb_sameParams (h : tickGb s = .next t) : s.SameParams t := by
  obtain ⟨g, -, ⟨-, rfl⟩ | ⟨-, -, rfl⟩ | ⟨i, rest, -, -, -, hexec⟩⟩ := tickGb_next h
  · exact ⟨rfl, rfl⟩
  · exact ⟨rfl, rfl⟩
  · exact exec_sameParams (s := s.putGb _) hexec

theorem tick_sameParams (h : tick s = .next t) : s.SameParams t := by
  unfold tick at h
  split at h
  · exact tickC8_sameParams h
  · exact tickGb_sameParams h

theorem startBlock_sameParams (s : State) : s.SameParams (startBlock s) := by
  unfold startBlock
  split
  · exact ⟨rfl, rfl⟩
  · split <;> exact ⟨rfl, rfl⟩

theorem setContext_sameParams {id : Option Nat} (h : setContext s id = .next t) : s.SameParams t := by
  unfold setContext at h
  split at h <;> split at h <;> cases h <;> exact ⟨rfl, rfl⟩

theorem loadProgram_sameParams {image : Option (List Byte)} (h : loadProgram s image = .next t) :
    s.SameParams t := by
  unfold loadProgram at h
  split at h <;> dsimp only at h <;> split at h <;> cases h <;> exact ⟨rfl, rfl⟩

theorem setKeyboardValue_sameParams {code : Nat} (h : setKeyboardValue s code = .next t) : s.SameParams t := by
  unfold setKeyboardValue at h
  split at h <;> split at h <;> cases h <;> exact ⟨rfl, rfl⟩

theorem quitProgram_sameParams (s : State) : s.SameParams (quitProgram s) := by
  unfold quitProgram
  split <;> exact ⟨rfl, rfl⟩

theorem timerTick_sameParams (h : timerTick s = .next t) : s.SameParams t := by
  unfold timerTick at h
  split at h
  · split at h <;> cases h
    exact ⟨rfl, rfl⟩
  · cases h

theorem perform_sameParams {op : HostOp} (h : perform op s = .next t) : s.SameParams t := by
  cases op with
  | initializeBlock => cases h; exact startBlock_sameParams s
  | setEmulationContext id => exact setContext_sameParams h
  | loadProgram image => exact loadProgram_sameParams h
  | tickEmulation => exact tick_sameParams h
  | setKeyboardValue code => exact setKeyboardValue_sameParams h
  | quitProgram => cases h; exact quitProgram_sameParams s
  | timerTick => exact timerTick_sameParams h

end Frame

/-- Settles O20: an instruction replaces the active block of its core, and no host operation writes a parameter. -/
theorem handlersTouchOnlyTheActiveBlock : Obligations.HandlersTouchOnlyTheActiveBlock := by
  refine ⟨fun i s t h => ?_, fun s t h => perform_sameParams (s := s.taken) h⟩
  obtain ⟨harch, b, b', d, r, -, ht⟩ | ⟨harch, g, g', r, -, rfl⟩ := exec_next h
  · have hdraws := fun hi => exec_draws harch hi h
    subst ht
    exact ⟨Engine.sameButActive_putActive _ _, Engine.sameButActive_refl _, fun _ => rfl,
      fun hgb => (nomatch harch.symm.trans hgb), rfl, rfl, rfl, rfl, hdraws⟩
  · exact ⟨Engine.sameButActive_refl _, Engine.sameButActive_putActive _ _,
      fun hc8 => (nomatch harch.symm.trans hc8), fun _ => rfl, rfl, rfl, rfl, rfl, fun _ => rfl⟩

end Sys2Proof.Machine

namespace Sys2Proof.Machine

/-! # CHIP-8 control transfer (41_chip8_control R140 to R147, 43_chip8_io_mem R182, R183) -/

/-! ## The block after a transfer -/

/-- The block after `PC` is replaced (R141, R143). -/
def C8Block.jumped (b : C8Block) (pc : Word) : C8Block := { b with pc := pc }

/-- The block after `PC` is pushed onto a stack with a free slot and replaced (R142). -/
def C8Block.called (b : C8Block) (pc : Word) (hfree : b.sp.toNat < 16) : C8Block :=
  { b with stack := b.stack.set b.sp.toNat b.pc hfree, sp := b.sp + 1, pc := pc }

/-- The block after `PC` is popped from a stack with a slot in use (R140). -/
def C8Block.returned (b : C8Block) (hused : 0 < b.sp.toNat ∧ b.sp.toNat ≤ 16) : C8Block :=
  { b with sp := b.sp - 1, pc := b.stack[b.sp.toNat - 1]'(by omega) }

theorem C8Block.frame_jumped (b : C8Block) (pc : Word) : C8Frame [.pc] b (b.jumped pc) := by
  intro k hk
  cases k <;> simp_all [C8Field.same, C8Block.jumped]

theorem C8Block.frame_called (b : C8Block) (pc : Word) (hfree : b.sp.toNat < 16) :
    C8Frame [.stack, .sp, .pc] b (b.called pc hfree) := by
  intro k hk
  cases k <;> simp_all [C8Field.same, C8Block.called]

theorem C8Block.frame_returned (b : C8Block) (hused : 0 < b.sp.toNat ∧ b.sp.toNat ≤ 16) :
    C8Frame [.sp, .pc] b (b.returned hused) := by
  intro k hk
  cases k <;> simp_all [C8Field.same, C8Block.returned]

theorem C8Block.called_sp_toNat (b : C8Block) (pc : Word) (hfree : b.sp.toNat < 16) :
    (b.called pc hfree).sp.toNat = b.sp.toNat + 1 := by
  have hadd : (b.called pc hfree).sp.toNat = (b.sp.toNat + 1) % 256 := BitVec.toNat_add b.sp 1
  omega

theorem C8Block.returned_sp_toNat (b : C8Block) (hused : 0 < b.sp.toNat ∧ b.sp.toNat ≤ 16) :
    (b.returned hused).sp.toNat = b.sp.toNat - 1 := by
  have hsub : (b.returned hused).sp.toNat = (256 - 1 + b.sp.toNat) % 256 := BitVec.toNat_sub b.sp 1
  omega

/-- A call leaves a slot in use for the return. -/
theorem C8Block.called_used (b : C8Block) (pc : Word) (hfree : b.sp.toNat < 16) :
    0 < (b.called pc hfree).sp.toNat ∧ (b.called pc hfree).sp.toNat ≤ 16 := by
  rw [called_sp_toNat]
  omega

/-- A call writes the slot that `SP` names and no other. -/
theorem C8Block.called_stack_getElem? (b : C8Block) (pc : Word) (hfree : b.sp.toNat < 16) (k : Nat) :
    (b.called pc hfree).stack[k]? = if k = b.sp.toNat then some b.pc else b.stack[k]? := by
  simp only [C8Block.called, Vector.getElem?_set, eq_comm]

theorem C8Block.stack_getElem?_returned (b : C8Block) (hused : 0 < b.sp.toNat ∧ b.sp.toNat ≤ 16) :
    b.stack[b.sp.toNat - 1]? = some (b.returned hused).pc :=
  Vector.getElem?_eq_getElem (by omega)

/-- A return pops what the call before it pushed, so that only the stack slots may differ. -/
theorem C8Block.frame_returned_called (b : C8Block) (pc : Word) (hfree : b.sp.toNat < 16)
    (hused : 0 < (b.called pc hfree).sp.toNat ∧ (b.called pc hfree).sp.toNat ≤ 16) :
    C8Frame [.stack] b ((b.called pc hfree).returned hused) := by
  intro k hk
  cases k with
  | sp => exact BitVec.add_sub_cancel b.sp 1
  | pc =>
    have hslot : (b.called pc hfree).sp.toNat - 1 = b.sp.toNat := by rw [called_sp_toNat, Nat.add_sub_cancel]
    have hpopped : some ((b.called pc hfree).returned hused).pc = some b.pc := by
      rw [← stack_getElem?_returned, called_stack_getElem?, if_pos hslot]
    exact Option.some.inj hpopped
  | mem => exact fun _ => rfl
  | stack => exact absurd (List.mem_singleton_self _) hk
  | _ => rfl

/-! ## What each instruction does -/

theorem wordNNN_eq_ofNat (hi : BitVec 4) (nnn : BitVec 12) :
    wordNNN hi nnn = BitVec.ofNat 16 (4096 * hi.toNat + nnn.toNat) := by
  rw [← wordNNN_toNat, BitVec.ofNat_toNat, BitVec.setWidth_eq]

section Transfer

variable {s : State} {b : C8Block}

/-- A completed instruction leaves the machine ready for the next one. -/
theorem C8Completes.ready {o : Host.Outcome State Fault Refusal} {b' : C8Block} {n : Nat} (hb : C8Ready s b)
    (h : C8Completes s o b' n) : ∃ t, o = .next t ∧ C8Ready t b' := by
  obtain ⟨t, ho, hactive, -, -, harch, -⟩ := h
  exact ⟨t, ho, harch.trans hb.1, hactive⟩

theorem exec_c8Call_of_free (hb : C8Ready s b) (nnn : BitVec 12) (hfree : b.sp.toNat < 16) :
    C8Completes s (exec (.c8Call nnn) s) (b.called (nnn.setWidth 16) hfree) 1 :=
  State.runC8_ok hb (dif_pos hfree)

theorem exec_c8Call_of_full (hb : C8Ready s b) (nnn : BitVec 12) (hfull : ¬ b.sp.toNat < 16) :
    C8Halts s (exec (.c8Call nnn) s) b .stackFault (wordNNN 0x2 nnn) :=
  State.runC8_raise (r := .stackFault (wordNNN 0x2 nnn)) hb (dif_neg hfull)

theorem exec_c8Ret_of_used (hb : C8Ready s b) (hused : 0 < b.sp.toNat ∧ b.sp.toNat ≤ 16) :
    C8Completes s (exec .c8Ret s) (b.returned hused) 1 :=
  State.runC8_ok hb (dif_pos hused)

theorem exec_c8Ret_of_unused (hb : C8Ready s b) (hunused : ¬ (0 < b.sp.toNat ∧ b.sp.toNat ≤ 16)) :
    C8Halts s (exec .c8Ret s) b .stackFault 0x00EE :=
  State.runC8_raise (r := .stackFault 0x00EE) hb (dif_neg hunused)

theorem exec_c8Jp (hb : C8Ready s b) (nnn : BitVec 12) :
    C8Completes s (exec (.c8Jp nnn) s) (b.jumped (nnn.setWidth 16)) 1 :=
  .of_ok (f := fun b => .ok (b.jumped (nnn.setWidth 16))) hb rfl rfl

theorem exec_c8JpV0 (hb : C8Ready s b) (nnn : BitVec 12) :
    C8Completes s (exec (.c8JpV0 nnn) s) (b.jumped (nnn.setWidth 16 + (b.getV 0).setWidth 16)) 1 :=
  .of_ok (f := fun b => .ok (b.jumped (nnn.setWidth 16 + (b.getV 0).setWidth 16))) hb rfl rfl

/-- An instruction whose handler is a skip: `PC` moves exactly when the condition holds. -/
theorem exists_c8Completes_skipIf {o : Host.Outcome State Fault Refusal} {cond : C8Block → Bool} {taken : Prop}
    (hb : C8Ready s b) (ho : o = s.runC8 fun b => .ok (b.skipIf (cond b))) (hcond : taken ↔ cond b = true) :
    ∃ b', C8Completes s o b' 1 ∧ C8Frame [.pc] b b' ∧
      (taken → b'.pc = b.pc + 2) ∧ (¬ taken → b'.pc = b.pc) := by
  refine ⟨b.skipIf (cond b), .of_ok hb ho rfl, b.frame_skipIf _, fun htaken => ?_, fun hnot => ?_⟩
  · rw [C8Block.skipIf_pc, if_pos (hcond.1 htaken)]
  · rw [C8Block.skipIf_pc, if_neg (mt hcond.2 hnot)]

end Transfer

/-! ## The statements about control transfer -/

/-- Settles O31: below 16 slots a call pushes, above 0 a return pops, and at 16 and at 0 they raise. -/
theorem c8CallAndReturn : Obligations.C8CallAndReturn := by
  intro s b nnn hb
  refine ⟨fun hfree => ?_, fun hfull => ?_, fun hpos hle => ?_, fun hempty => ?_⟩
  · exact ⟨_, exec_c8Call_of_free hb nnn hfree, b.frame_called _ hfree, BitVec.toNat_setWidth_of_le (by decide),
      b.called_sp_toNat _ hfree, fun k _ => b.called_stack_getElem? _ hfree k⟩
  · exact wordNNN_eq_ofNat 0x2 nnn ▸ exec_c8Call_of_full hb nnn (by simp [hfull])
  · exact ⟨_, exec_c8Ret_of_used hb ⟨hpos, hle⟩, b.frame_returned _, b.returned_sp_toNat _,
      b.stack_getElem?_returned _⟩
  · exact exec_c8Ret_of_unused hb (by simp [hempty])

/-- Settles O32: the call leaves a slot in use, so the return pops it. -/
theorem c8ReturnAfterCall : Obligations.C8ReturnAfterCall := by
  intro s b nnn hb hfree
  have hused := b.called_used (nnn.setWidth 16) hfree
  obtain ⟨t, hcall, ht⟩ := (exec_c8Call_of_free hb nnn hfree).ready hb
  obtain ⟨u, hret, hu⟩ := (exec_c8Ret_of_used ht hused).ready ht
  exact ⟨t, u, _, hcall, hret, hu, b.frame_returned_called _ hfree hused⟩

/-- Settles O29: a 12-bit address and a byte add up without a carry out of 16 bits. -/
theorem c8Jumps : Obligations.C8Jumps := by
  intro s b nnn hb
  refine ⟨⟨_, exec_c8Jp hb nnn, b.frame_jumped _, BitVec.toNat_setWidth_of_le (by decide)⟩,
    _, exec_c8JpV0 hb nnn, b.frame_jumped _, ?_⟩
  have := nnn.isLt
  have := (b.getV 0).isLt
  simp only [C8Block.jumped, BitVec.toNat_add, BitVec.toNat_setWidth]
  omega

/-- Settles O30: each is a skip on its own condition. -/
theorem c8Skips : Obligations.C8Skips := by
  rintro s b i taken hb (⟨x, kk, rfl, h⟩ | ⟨x, kk, rfl, h⟩ | ⟨x, y, rfl, h⟩ | ⟨x, y, rfl, h⟩ | ⟨x, rfl, h⟩ |
    ⟨x, rfl, h⟩)
  · exact exists_c8Completes_skipIf hb rfl (h.trans beq_iff_eq.symm)
  · exact exists_c8Completes_skipIf hb rfl (h.trans bne_iff_ne.symm)
  · exact exists_c8Completes_skipIf hb rfl (h.trans beq_iff_eq.symm)
  · exact exists_c8Completes_skipIf hb rfl (h.trans bne_iff_ne.symm)
  · exact exists_c8Completes_skipIf hb rfl (h.trans beq_iff_eq.symm)
  · exact exists_c8Completes_skipIf hb rfl (h.trans bne_iff_ne.symm)

end Sys2Proof.Machine

namespace Sys2Proof.Machine

/-! # CHIP-8 loads, arithmetic and logic (42_chip8_alu R160 to R174, 43_chip8_io_mem R184, R188) -/

/-! ## The results and their flags, as numbers -/

theorem flagByte_toNat (c : Prop) [Decidable c] :
    (if decide c = true then 1 else 0 : Byte).toNat = if c then 1 else 0 := by
  by_cases h : c <;> simp [h]

theorem bitByte_toNat (bit : Bool) : (if bit = true then 1 else 0 : Byte).toNat = bit.toNat := by
  cases bit <;> rfl

theorem c8Sum_flag_toNat (a c : Byte) :
    (if (c8Sum a c).2 = true then 1 else 0 : Byte).toNat = if a.toNat + c.toNat > 255 then 1 else 0 :=
  flagByte_toNat _

theorem c8Difference_flag_toInt (a c : Byte) :
    ((if (c8Difference a c).2 = true then 1 else 0 : Byte).toNat : Int) = if a.toNat ≥ c.toNat then 1 else 0 := by
  rw [c8Difference, flagByte_toNat, Nat.cast_ite, Nat.cast_one, Nat.cast_zero]

theorem c8ShiftRight_toNat (a : Byte) : (c8ShiftRight a).1.toNat = a.toNat / 2 := by
  rw [c8ShiftRight, BitVec.toNat_ushiftRight, Nat.shiftRight_one]

/-- The bit shifted out to the right is the lowest (R169). -/
theorem c8ShiftRight_flag_toNat (a : Byte) :
    (if (c8ShiftRight a).2 = true then 1 else 0 : Byte).toNat = a.toNat % 2 := by
  rw [c8ShiftRight, bitByte_toNat, BitVec.getLsbD, Nat.toNat_testBit, pow_zero, Nat.div_one]

theorem c8ShiftLeft_toNat (a : Byte) : (c8ShiftLeft a).1.toNat = a.toNat * 2 % 256 := by
  rw [c8ShiftLeft, BitVec.toNat_shiftLeft, Nat.shiftLeft_eq, pow_one]

/-- The bit shifted out to the left is the highest of eight (R171). -/
theorem c8ShiftLeft_flag_toNat (a : Byte) :
    (if (c8ShiftLeft a).2 = true then 1 else 0 : Byte).toNat = a.toNat / 128 := by
  have hlt : a.toNat / 2 ^ 7 < 2 := Nat.div_lt_of_lt_mul a.isLt
  rw [c8ShiftLeft, bitByte_toNat, BitVec.getLsbD, Nat.toNat_testBit]
  exact Nat.mod_eq_of_lt hlt

/-! ## The block after `I` is replaced -/

/-- The block after `I` is replaced (R172, R174, R188). -/
def C8Block.indexed (b : C8Block) (i : Word) : C8Block := { b with i := i }

theorem C8Block.frame_indexed (b : C8Block) (i : Word) : C8Frame [.i] b (b.indexed i) := by
  intro k hk
  cases k <;> simp_all [C8Field.same, C8Block.indexed]

/-! ## What an instruction of each kind does -/

section Alu

variable {s : State} {b : C8Block} {o : Host.Outcome State Fault Refusal}

/-- An instruction whose handler writes one register: VF is written only as that register. -/
theorem exists_c8Completes_setV {x : BitVec 4} {v : C8Block → Byte} (hb : C8Ready s b)
    (ho : o = s.runC8 fun b => .ok (b.setV x (v b))) :
    ∃ b', C8Completes s o b' 1 ∧ C8Frame [.v] b b' ∧ ∀ j, b'.getV j = if j = x then v b else b.getV j :=
  ⟨b.setV x (v b), .of_ok hb ho rfl, b.frame_setV _ _, fun j => b.getV_setV _ j _⟩

/-- An instruction whose handler writes a result and then a flag (R160), with the registers read as numbers:
as naturals, or as integers where the result is a difference. -/
theorem exists_c8Completes_setVWithFlag {α : Type} (num : Byte → α) {x : BitVec 4} {r : C8Block → Byte × Bool}
    {result flag : α} (hb : C8Ready s b)
    (ho : o = s.runC8 fun b => .ok (b.setVWithFlag x (r b).1 (r b).2))
    (hresult : num (r b).1 = result) (hflag : num (if (r b).2 then 1 else 0) = flag) :
    ∃ b', C8Completes s o b' 1 ∧ C8Frame [.v] b b' ∧
      ∀ j, num (b'.getV j) = if j = 15 then flag else if j = x then result else num (b.getV j) := by
  refine ⟨b.setVWithFlag x (r b).1 (r b).2, .of_ok hb ho rfl, b.frame_setVWithFlag _ _ _, fun j => ?_⟩
  simp only [C8Block.getV_setVWithFlag, ← hresult, ← hflag, apply_ite num]

/-- An instruction whose handler writes `I`. -/
theorem exists_c8Completes_indexed {i : C8Block → Word} {n : Nat} (hb : C8Ready s b)
    (ho : o = s.runC8 fun b => .ok (b.indexed (i b))) (hi : (i b).toNat = n) :
    ∃ b', C8Completes s o b' 1 ∧ C8Frame [.i] b b' ∧ b'.i.toNat = n :=
  ⟨b.indexed (i b), .of_ok hb ho rfl, b.frame_indexed _, hi⟩

end Alu

/-! ## The statements about loads, arithmetic and logic -/

/-- Settles O26: each writes a result and then a flag, so the flag is what remains in V15. -/
theorem c8FlagArithmetic : Obligations.C8FlagArithmetic := by
  rintro s b x y p q hb rfl rfl
  refine ⟨?add, ?sub, ?subn, ?shr, ?shl⟩
  case add =>
    exact exists_c8Completes_setVWithFlag BitVec.toNat hb rfl (c8Sum_toNat _ _) (c8Sum_flag_toNat _ _)
  case sub =>
    exact exists_c8Completes_setVWithFlag (fun v => (v.toNat : Int)) hb rfl (c8Difference_toInt _ _)
      (c8Difference_flag_toInt _ _)
  case subn =>
    exact exists_c8Completes_setVWithFlag (fun v => (v.toNat : Int)) hb rfl (c8Difference_toInt _ _)
      (c8Difference_flag_toInt _ _)
  case shr =>
    exact exists_c8Completes_setVWithFlag BitVec.toNat hb rfl (c8ShiftRight_toNat _) (c8ShiftRight_flag_toNat _)
  case shl =>
    exact exists_c8Completes_setVWithFlag BitVec.toNat hb rfl (c8ShiftLeft_toNat _) (c8ShiftLeft_flag_toNat _)

/-- Settles O24: each writes one register. -/
theorem c8RegisterLoads : Obligations.C8RegisterLoads := by
  intro s b x y kk hb
  exact ⟨exists_c8Completes_setV hb rfl, exists_c8Completes_setV hb rfl, exists_c8Completes_setV hb rfl⟩

/-- Settles O25: each writes one register, and the immediate add keeps the sum of `c8Sum` without its carry. -/
theorem c8LogicAndImmediateAdd : Obligations.C8LogicAndImmediateAdd := by
  intro s b x y kk hb
  refine ⟨exists_c8Completes_setV hb rfl, exists_c8Completes_setV hb rfl, exists_c8Completes_setV hb rfl, ?_⟩
  obtain ⟨b', hdone, hframe, hv⟩ := exists_c8Completes_setV (o := exec (.c8AddByte x kk) s) hb rfl
  exact ⟨b', hdone, hframe, fun j => by rw [hv, apply_ite BitVec.toNat, c8Sum_toNat]⟩

/-- Settles O27: a 12-bit address and five times a nibble fit in 16 bits, and the sum wraps there only. -/
theorem c8IndexWrites : Obligations.C8IndexWrites := by
  intro s b x nnn hb
  refine ⟨exists_c8Completes_indexed hb rfl (BitVec.toNat_setWidth_of_le (by decide)),
    exists_c8Completes_indexed hb rfl (u16_toNat _), exists_c8Completes_indexed hb rfl ?_⟩
  rw [BitVec.toNat_ofNat]
  simp only [Config.c8FontBase, lowNibble]
  omega

/-- Settles O28: the handler writes one register, in the machine whose count of draws has moved. -/
theorem c8RandomByte : Obligations.C8RandomByte := by
  intro s b x kk hb
  have hb₁ : C8Ready { s with draws := s.draws + 1 } b := hb
  exact exists_c8Completes_setV hb₁ rfl

end Sys2Proof.Machine

namespace Sys2Proof.Machine

/-! # CHIP-8 display, keyboard, timer and memory instructions (43_chip8_io_mem) -/

/-! ## The pixels under a sprite (R181) -/

/-- A cell is named by its column modulo 64 and its row modulo 32. -/
theorem Display.cell_mod (d : Display) (px py : Nat) : Display.cell d (px % 64) (py % 32) = Display.cell d px py := by
  simp only [Display.cell, Nat.mod_mod]

/-- The column and the row of the sprite that land on a pixel are its distances from the corner, modulo 64 and 32. -/
theorem spriteBit_iff_spriteCovers {m : Memory} {base n x y px py : Nat} (hn : n ≤ 32) (hpx : px < 64)
    (hpy : py < 32) : spriteBit m base n x y px py = true ↔ SpriteCovers m base n x y px py := by
  simp only [spriteBit, rowBit, Bool.and_eq_true, decide_eq_true_eq]
  constructor
  · rintro ⟨hrow, hcol, hbit⟩
    exact ⟨_, _, hrow, hcol, by omega, by omega, hbit⟩
  · rintro ⟨row, col, hrow, hcol, hx, hy, hbit⟩
    have hcol_eq : (px + 64 - x % 64) % 64 = col := by omega
    have hrow_eq : (py + 32 - y % 32) % 32 = row := by omega
    rw [hcol_eq, hrow_eq]
    exact ⟨hrow, hcol, hbit⟩

section Sprite

variable {m : Memory} {base n x y : Nat} {d : Display}

theorem drawSprite_cell_eq_xor (hn : n ≤ 32) (px py : Nat) :
    Display.cell (drawSprite m base n x y d).1 px py =
      xor (Display.cell d px py) (spriteBit m base n x y px py) :=
  (drawSprite_spec m base n x y d hn).1 px py

/-- A pixel changes exactly when the sprite covers it. -/
theorem drawSprite_cell_ne_iff {px py : Nat} (hn : n ≤ 32) (hpx : px < 64) (hpy : py < 32) :
    Display.cell (drawSprite m base n x y d).1 px py ≠ Display.cell d px py ↔
      SpriteCovers m base n x y px py := by
  rw [drawSprite_cell_eq_xor hn, ← spriteBit_iff_spriteCovers hn hpx hpy]
  cases spriteBit m base n x y px py <;> simp

/-- A set pixel is cleared exactly when the sprite covers it. -/
theorem drawSprite_cell_eq_false_iff {px py : Nat} (hn : n ≤ 32) (hpx : px < 64) (hpy : py < 32)
    (hset : Display.cell d px py = true) :
    Display.cell (drawSprite m base n x y d).1 px py = false ↔ SpriteCovers m base n x y px py := by
  rw [← drawSprite_cell_ne_iff (d := d) hn hpx hpy, hset, ne_eq, Bool.not_eq_true]

/-- The flag says that some pixel went from set to clear. -/
theorem drawSprite_hit_iff (hn : n ≤ 32) :
    (drawSprite m base n x y d).2 = true ↔ ∃ px py, px < 64 ∧ py < 32 ∧ Display.cell d px py = true ∧
      Display.cell (drawSprite m base n x y d).1 px py = false := by
  rw [(drawSprite_spec m base n x y d hn).2]
  constructor
  · rintro ⟨row, col, hrow, hcol, hbit, hset⟩
    have hpx : (x + col) % 64 < 64 := Nat.mod_lt _ (by decide)
    have hpy : (y + row) % 32 < 32 := Nat.mod_lt _ (by decide)
    have hset : Display.cell d ((x + col) % 64) ((y + row) % 32) = true := (Display.cell_mod ..).trans hset
    exact ⟨_, _, hpx, hpy, hset, (drawSprite_cell_eq_false_iff hn hpx hpy hset).2
      ⟨row, col, hrow, hcol, rfl, rfl, hbit⟩⟩
  · rintro ⟨px, py, hpx, hpy, hset, hclear⟩
    obtain ⟨row, col, hrow, hcol, rfl, rfl, hbit⟩ := (drawSprite_cell_eq_false_iff hn hpx hpy hset).1 hclear
    exact ⟨row, col, hrow, hcol, hbit, (Display.cell_mod ..).symm.trans hset⟩

end Sprite

/-! ## Bytes stored at rising addresses -/

theorem Memory.read_writeBytes_add (m : Memory) (base : Nat) {bytes : List Byte} {k : Nat}
    (hk : k < bytes.length) : (m.writeBytes base bytes).read (base + k) = bytes[k] := by
  rw [Memory.read_writeBytes, if_pos (Nat.le_add_right ..), Nat.add_sub_cancel_left,
    List.getElem?_eq_getElem hk, Option.getD_some]

theorem Memory.read_writeBytes_outside (m : Memory) {base a : Nat} {bytes : List Byte}
    (ha : a < base ∨ base + bytes.length ≤ a) : (m.writeBytes base bytes).read a = m.read a := by
  rw [Memory.read_writeBytes]
  split
  · rw [List.getElem?_eq_none (by omega), Option.getD_none]
  · rfl

/-- Each decimal digit of a byte fits in a byte (R189). -/
theorem bcdDigits_toNat (v : Byte) :
    (bcdDigits v).map BitVec.toNat = [v.toNat / 100, v.toNat / 10 % 10, v.toNat % 10] := by
  have hv := v.isLt
  have hhundreds : v.toNat / 100 % 256 = v.toNat / 100 := Nat.mod_eq_of_lt (by omega)
  have htens : v.toNat / 10 % 10 % 256 = v.toNat / 10 % 10 := Nat.mod_eq_of_lt (by omega)
  have hones : v.toNat % 10 % 256 = v.toNat % 10 := Nat.mod_eq_of_lt (by omega)
  simp [bcdDigits, hhundreds, htens, hones]

/-! ## The block after each instruction -/

/-- The block with every pixel 0 (R180). -/
def C8Block.cleared (b : C8Block) : C8Block := { b with disp := Vector.replicate 32 0 }

/-- The display and the collision flag after `DRW Vx,Vy,n` (R181). -/
def C8Block.sprite (b : C8Block) (x y n : BitVec 4) : Display × Bool :=
  drawSprite b.mem b.i.toNat n.toNat ((b.getV x).toNat % 64) ((b.getV y).toNat % 32) b.disp

/-- The block after `DRW Vx,Vy,n` (R181). -/
def C8Block.drawn (b : C8Block) (x y n : BitVec 4) : C8Block :=
  { b with disp := (b.sprite x y n).1 }.setV 0xF (if (b.sprite x y n).2 then 1 else 0)

/-- The block after the delay timer is replaced (R186). -/
def C8Block.delayed (b : C8Block) (v : Byte) : C8Block := { b with dt := v }

/-- The block after the sound timer is replaced (R187). -/
def C8Block.sounding (b : C8Block) (v : Byte) : C8Block := { b with st := v }

/-- The block after the decimal digits of a byte are stored from `I` upward (R189). -/
def C8Block.storeDigits (b : C8Block) (v : Byte) : C8Block :=
  { b with mem := b.mem.writeBytes b.i.toNat (bcdDigits v) }

theorem C8Block.frame_cleared (b : C8Block) : C8Frame [.disp] b b.cleared := by
  intro k hk
  cases k <;> simp_all [C8Field.same, C8Block.cleared]

theorem C8Block.frame_drawn (b : C8Block) (x y n : BitVec 4) : C8Frame [.v, .disp] b (b.drawn x y n) := by
  intro k hk
  cases k <;> simp_all [C8Field.same, C8Block.drawn]

theorem C8Block.frame_delayed (b : C8Block) (v : Byte) : C8Frame [.dt] b (b.delayed v) := by
  intro k hk
  cases k <;> simp_all [C8Field.same, C8Block.delayed]

theorem C8Block.frame_sounding (b : C8Block) (v : Byte) : C8Frame [.st] b (b.sounding v) := by
  intro k hk
  cases k <;> simp_all [C8Field.same, C8Block.sounding]

theorem C8Block.frame_storeDigits (b : C8Block) (v : Byte) : C8Frame [.mem] b (b.storeDigits v) := by
  intro k hk
  cases k <;> simp_all [C8Field.same, C8Block.storeDigits]

theorem C8Block.cell_cleared (b : C8Block) (px py : Nat) : Display.cell b.cleared.disp px py = false := by
  simp [Display.cell, C8Block.cleared]

theorem C8Block.drawn_getV_flag (b : C8Block) (x y n : BitVec 4) :
    (b.drawn x y n).getV 15 = if (b.sprite x y n).2 then 1 else 0 := by
  rw [drawn, getV_setV, if_pos rfl]

theorem C8Block.drawn_flag_bit (b : C8Block) (x y n : BitVec 4) :
    (b.drawn x y n).getV 15 = 0 ∨ (b.drawn x y n).getV 15 = 1 := by
  rw [drawn_getV_flag]
  cases (b.sprite x y n).2
  · exact .inl rfl
  · exact .inr rfl

theorem C8Block.drawn_flag_eq_one_iff (b : C8Block) (x y n : BitVec 4) :
    (b.drawn x y n).getV 15 = 1 ↔ (b.sprite x y n).2 = true := by
  rw [drawn_getV_flag]
  cases (b.sprite x y n).2 <;> decide

theorem C8Block.drawn_getV_other (b : C8Block) (x y n : BitVec 4) {j : BitVec 4} (hj : j ≠ 15) :
    (b.drawn x y n).getV j = b.getV j := by
  rw [drawn, getV_setV, if_neg hj]
  rfl

/-- The digit at `I + k`, as a number. -/
theorem C8Block.storeDigits_read (b : C8Block) (v : Byte) {k : Nat} (hk : k < 3) :
    ((b.storeDigits v).mem.read (b.i.toNat + k)).toNat =
      [v.toNat / 100, v.toNat / 10 % 10, v.toNat % 10][k] := by
  simp only [← bcdDigits_toNat, List.getElem_map]
  exact congrArg _ (Memory.read_writeBytes_add _ _ hk)

theorem C8Block.storeDigits_outside (b : C8Block) (v : Byte) :
    SameOutside [b.i.toNat, b.i.toNat + 1, b.i.toNat + 2] b.mem (b.storeDigits v).mem := by
  intro a ha
  simp only [List.mem_cons, List.not_mem_nil, or_false, not_or] at ha
  have hlength : (bcdDigits v).length = 3 := rfl
  exact Memory.read_writeBytes_outside _ (by omega)

theorem storeRegs_read_add (b : C8Block) {n : Nat} {j : BitVec 4} (hj : j.toNat < n) :
    (storeRegs b n).mem.read (b.i.toNat + j.toNat) = b.getV j := by
  rw [storeRegs_read, if_pos (by omega), Nat.add_sub_cancel_left, BitVec.ofNat_toNat, BitVec.setWidth_eq]

/-! ## What each instruction does -/

section Io

variable {s : State} {b : C8Block} {o : Host.Outcome State Fault Refusal} {f : C8Block → C8Block}

/-- A handler that never raises completes. -/
theorem C8Completes.of_handler (hb : C8Ready s b) (ho : o = s.runC8 fun b => .ok (f b)) :
    C8Completes s o (f b) 1 := .of_ok hb ho rfl

/-- A handler that checks the n bytes at `I` first completes when they lie in memory (20_memory R51). -/
theorem C8Completes.of_guard {n : Nat} (hb : C8Ready s b)
    (ho : o = s.runC8 fun b => do let b ← c8Guard b.i n b; .ok (f b))
    (hin : n = 0 ∨ b.i.toNat + n ≤ 4096) : C8Completes s o (f b) 1 :=
  .of_ok hb ho (by rw [c8Guard_ok b hin]; rfl)

/-- It halts with the lowest address above 0xFFF when they do not (20_memory R51, R52). -/
theorem C8Halts.of_guard {n : Nat} (hb : C8Ready s b)
    (ho : o = s.runC8 fun b => do let b ← c8Guard b.i n b; .ok (f b))
    (hn : n ≠ 0) (hout : 4096 < b.i.toNat + n) :
    C8Halts s o b .busFault (BitVec.ofNat 16 (max b.i.toNat 4096)) :=
  .of_raise (r := .busFault _) hb ho (by rw [c8Guard_raise b hn hout]; rfl)

theorem exec_c8LdVxK_of_key {x : BitVec 4} (hb : C8Ready s b) (hkey : b.key ≠ 0xFF) :
    C8Completes s (exec (.c8LdVxK x) s) (b.setV x b.key) 1 :=
  .of_ok hb rfl (if_neg hkey)

/-- With no key held, `PC` goes back onto the instruction (R185). -/
theorem exec_c8LdVxK_of_none {x : BitVec 4} (hb : C8Ready s b) (hnone : b.key = 0xFF) :
    C8Completes s (exec (.c8LdVxK x) s) (b.jumped (b.pc - 2)) 1 :=
  .of_ok hb rfl (if_pos hnone)

end Io

/-! ## The statements about display, keyboard, timers and memory -/

/-- Settles O34: the sprite inverts exactly the pixels it covers, and the flag, written last, says that one of them
was set. -/
theorem c8DrawSprite : Obligations.C8DrawSprite := by
  intro s b x y n hb
  have hrows : n.toNat ≤ 32 := by omega
  refine ⟨fun hin => ?completes, fun hn hout => ?halts⟩
  case completes =>
    have hin : n.toNat = 0 ∨ b.i.toNat + n.toNat ≤ 4096 := hin.imp_left (congrArg BitVec.toNat)
    exact ⟨b.drawn x y n, .of_guard (f := (·.drawn x y n)) hb rfl hin, b.frame_drawn x y n,
      fun px py hpx hpy => drawSprite_cell_ne_iff hrows hpx hpy, fun j => b.drawn_getV_other x y n,
      b.drawn_flag_bit x y n, (b.drawn_flag_eq_one_iff x y n).trans (drawSprite_hit_iff hrows)⟩
  case halts =>
    exact .of_guard (f := (·.drawn x y n)) hb rfl (fun h => hn (BitVec.eq_of_toNat_eq h)) hout

/-- Settles O36: the three digits are stored at `I`, `I + 1` and `I + 2`, which are checked first. -/
theorem c8DecimalStore : Obligations.C8DecimalStore := by
  intro s b x hb
  refine ⟨fun hin => ?completes, fun hout => ?halts⟩
  case completes =>
    exact ⟨b.storeDigits (b.getV x), .of_guard (f := fun b => b.storeDigits (b.getV x)) hb rfl (by omega),
      b.frame_storeDigits _, b.storeDigits_read _ (k := 0) (by decide), b.storeDigits_read _ (k := 1) (by decide),
      b.storeDigits_read _ (k := 2) (by decide), b.storeDigits_outside _⟩
  case halts => exact .of_guard (f := fun b => b.storeDigits (b.getV x)) hb rfl (by decide) (by omega)

/-- Settles O37: registers 0 to x are stored at consecutive addresses, which are checked first. -/
theorem c8StoreRegisters : Obligations.C8StoreRegisters := by
  intro s b x hb
  refine ⟨fun hin => ?completes, fun hout => ?halts⟩
  case completes =>
    refine ⟨storeRegs b (x.toNat + 1), .of_guard (f := (storeRegs · (x.toNat + 1))) hb rfl (by omega),
      frame_storeRegs b _, fun j hj => storeRegs_read_add b (Nat.lt_succ_of_le hj), fun a ha => ?_⟩
    rw [storeRegs_read, if_neg (by omega)]
  case halts => exact .of_guard (f := (storeRegs · (x.toNat + 1))) hb rfl (by omega) (by omega)

/-- Settles O38: registers 0 to x are loaded from consecutive addresses, which are checked first. -/
theorem c8LoadRegisters : Obligations.C8LoadRegisters := by
  intro s b x hb
  refine ⟨fun hin => ?completes, fun hout => ?halts⟩
  case completes =>
    refine ⟨loadRegs b (x.toNat + 1), .of_guard (f := (loadRegs · (x.toNat + 1))) hb rfl (by omega),
      frame_loadRegs b _, fun j => ?_⟩
    simp only [loadRegs_getV b _ x.isLt, Nat.lt_succ_iff, BitVec.le_def]
  case halts => exact .of_guard (f := (loadRegs · (x.toNat + 1))) hb rfl (by omega) (by omega)

/-- Settles O33: a display of 32 zero rows has no set cell. -/
theorem c8ClearScreen : Obligations.C8ClearScreen := by
  intro s b hb
  exact ⟨b.cleared, .of_handler (f := (·.cleared)) hb rfl, b.frame_cleared, fun px py _ _ => b.cell_cleared px py⟩

/-- Settles O35: the key wait either writes one register or moves `PC`, by whether a key is held. -/
theorem c8TimerWritesAndKeyWait : Obligations.C8TimerWritesAndKeyWait := by
  intro s b x hb
  refine ⟨⟨b.delayed (b.getV x), .of_handler (f := fun b => b.delayed (b.getV x)) hb rfl, b.frame_delayed _, rfl⟩,
    ⟨b.sounding (b.getV x), .of_handler (f := fun b => b.sounding (b.getV x)) hb rfl, b.frame_sounding _, rfl⟩, ?_⟩
  by_cases hnone : b.key = 0xFF
  · exact ⟨_, exec_c8LdVxK_of_none hb hnone, fun hkey => absurd hnone hkey, fun _ => ⟨b.frame_jumped _, rfl⟩⟩
  · exact ⟨_, exec_c8LdVxK_of_key hb hnone, fun _ => ⟨b.frame_setV _ _, fun j => b.getV_setV _ j _⟩,
      fun h => absurd h hnone⟩

end Sys2Proof.Machine

namespace Sys2Proof.Machine

/-! # GB loads, stores, push and pop (44_gb_load) -/

/-! ## Frames -/

section Frames

variable {l : List GbField} {g g' : GbBlock}

theorem GbKeeps.advance (g : GbBlock) (n : Nat) : GbKeeps [.pc] g (g.advance n) := GbKeeps.setPc g _

/-- The frame of an operation done after `PC` has moved past the operand bytes (30_encoding R89). -/
theorem GbKeeps.frame_of_advance {n : Nat} (h : GbKeeps l (g.advance n) g') : GbFrame (l ++ [.pc]) g g' := by
  intro k hk
  have hk : k ∉ [.pc] ++ l := by rwa [List.mem_append, or_comm, ← List.mem_append]
  exact ((GbKeeps.advance g n).trans h).frame k hk

end Frames

/-! ## An 8-bit operand written -/

theorem Memory.sameOutside_write (m : Memory) (k : Nat) (v : Byte) : SameOutside [k] m (m.write k v) :=
  fun _ ha => Memory.read_write_other m v (mt List.mem_singleton.2 ha)

theorem GbBlock.setR_pc (g : GbBlock) (r : Reg8) (v : Byte) : (g.setR r v).pc = g.pc :=
  (GbKeeps.setR g r v .pc).resolve_left (by simp)

theorem GbBlock.setR_hlMem_outside (g : GbBlock) (v : Byte) :
    SameOutside [g.hl.toNat] g.mem (g.setR .hlMem v).mem :=
  Memory.sameOutside_write g.mem _ v

/-! ## The stack (20_memory R58) -/

/-- The block after `POP rr` (R213). -/
def GbBlock.popTo (g : GbBlock) (p : StackPair) : GbBlock := g.popped.setStackPair p g.popValue

section Stack

variable (g : GbBlock) (v : Word) (p : StackPair)

theorem GbBlock.push16_read_high : (g.push16 v).mem.read (g.sp - 1).toNat = hiByte v := by
  have hne : (g.sp - 1).toNat ≠ (g.sp - 2).toNat := by bv_omega
  rw [push16_read, if_neg hne, if_pos rfl]

theorem GbBlock.push16_read_low : (g.push16 v).mem.read (g.sp - 2).toNat = loByte v := by
  rw [push16_read, if_pos rfl]

theorem GbBlock.push16_outside :
    SameOutside [(g.sp - 1).toNat, (g.sp - 2).toNat] g.mem (g.push16 v).mem := by
  intro a ha
  obtain ⟨hhigh, hlow⟩ : a ≠ (g.sp - 1).toNat ∧ a ≠ (g.sp - 2).toNat := by simpa using ha
  rw [push16_read, if_neg hlow, if_neg hhigh]

/-- What was pushed is the value at the top of the stack. -/
theorem GbBlock.popValue_push16 : (g.push16 v).popValue = v := by
  have habove : g.sp - 2 + 1 = g.sp - 1 := by bv_omega
  rw [popValue, memRead, memRead, push16_sp_eq, habove, push16_read_high, push16_read_low, leWord_loByte_hiByte]

theorem GbBlock.popped_push16_sp : (g.push16 v).popped.sp = g.sp := by
  rw [popped_sp, push16_sp_eq, BitVec.sub_add_cancel]

theorem sp_not_mem_fieldsOfStackPair : .sp ∉ fieldsOfStackPair p := by
  cases p <;> decide

theorem GbBlock.setStackPair_sp : (g.setStackPair p v).sp = g.sp :=
  (GbKeeps.setStackPair g p v .sp).resolve_left (sp_not_mem_fieldsOfStackPair p)

theorem GbBlock.keeps_popTo : GbKeeps (.sp :: fieldsOfStackPair p) g (g.popTo p) :=
  (GbKeeps.setSp g _).trans (GbKeeps.setStackPair _ p _)

theorem GbBlock.popTo_sp : (g.popTo p).sp = g.sp + 2 := setStackPair_sp ..

theorem GbBlock.popTo_getStackPair :
    (g.popTo p).getStackPair p = if p = .af then g.popValue &&& 0xFFF0 else g.popValue :=
  getStackPair_setStackPair ..

/-- `AF` takes the byte above `SP` whole and the flags of the byte at `SP` (R213). -/
theorem GbBlock.popTo_af :
    (g.popTo .af).a = g.memRead (g.sp + 1) ∧ (g.popTo .af).f = g.memRead g.sp &&& 0xF0 :=
  ⟨hiByte_pairUp .., congrArg (· &&& 0xF0) (loByte_pairUp ..)⟩

theorem GbBlock.popTo_push16_sp : ((g.push16 v).popTo p).sp = g.sp :=
  (setStackPair_sp ..).trans (popped_push16_sp g v)

/-- A push and a pop change the bytes of memory and the pair popped: `SP` is back. -/
theorem GbBlock.frame_popTo_push16 : GbFrame (.mem :: fieldsOfStackPair p) g ((g.push16 v).popTo p) := by
  intro k hk
  by_cases hsp : k = .sp
  · subst hsp
    exact popTo_push16_sp g v p
  · obtain ⟨hmem, hpair⟩ := not_or.1 (mt List.mem_cons.2 hk)
    exact ((GbKeeps.push16 g v).trans (keeps_popTo _ p)).frame k (by simp [hmem, hsp, hpair])

end Stack

/-! ## What each instruction does -/

section Load

variable {s : State} {g : GbBlock} {o : Host.Outcome State Fault Refusal}

/-- A completed instruction leaves the machine ready for the next one. -/
theorem GbCompletes.ready {g' : GbBlock} (hg : GbReady s g) (h : GbCompletes s o g') :
    ∃ t, o = .next t ∧ GbReady t g' := by
  obtain ⟨t, -, ho, -, hactive, -, -, harch, -⟩ := h
  exact ⟨t, ho, harch.trans hg.1, hactive⟩

theorem exec_gbLdRR (hg : GbReady s g) (dst src : Reg8) :
    GbCompletes s (exec (.gbLdRR dst src) s) (g.setR dst (g.getR src)) :=
  .of_run (f := fun g => (g.setR dst (g.getR src), s.cycles.ofLdRR dst src)) hg rfl (GbCycles.ofLdRR_pos ..)

theorem exec_gbLdRN (hg : GbReady s g) (dst : Reg8) (n : Byte) :
    GbCompletes s (exec (.gbLdRN dst n) s) ((g.advance 1).setR dst n) :=
  .of_run (f := fun g => ((g.advance 1).setR dst n, s.cycles.ofLdRN dst)) hg rfl (GbCycles.ofLdRN_pos ..)

theorem exec_gbLdPairNn (hg : GbReady s g) (p : Pair) (nn : Word) :
    GbCompletes s (exec (.gbLdPairNn p nn) s) ((g.advance 2).setPair p nn) :=
  .of_run (f := fun g => ((g.advance 2).setPair p nn, s.cycles.ldPairNn)) hg rfl (Figure.pos _)

theorem exec_gbPush (hg : GbReady s g) (p : StackPair) :
    GbCompletes s (exec (.gbPush p) s) (g.push16 (g.getStackPair p)) :=
  .of_run (f := fun g => (g.push16 (g.getStackPair p), s.cycles.push)) hg rfl (Figure.pos _)

theorem exec_gbPop (hg : GbReady s g) (p : StackPair) : GbCompletes s (exec (.gbPop p) s) (g.popTo p) :=
  .of_run (f := fun g => (g.popTo p, s.cycles.pop)) hg rfl (Figure.pos _)

/-- An 8-bit load whose handler has moved `PC` past k operand bytes (R200 to R202). -/
theorem exists_gbCompletes_setR {dst : Reg8} {v : Byte} {k : Nat}
    (h : GbCompletes s o ((g.advance k).setR dst v)) :
    ∃ g', GbCompletes s o g' ∧ GbFrame [fieldOfReg dst, .pc] g g' ∧ g'.pc = g.pc + BitVec.ofNat 16 k ∧
      (dst ≠ .hlMem → g'.getR dst = v) ∧
      (dst = .hlMem → g'.mem.read g.hl.toNat = v ∧ SameOutside [g.hl.toNat] g.mem g'.mem) := by
  refine ⟨_, h, (GbKeeps.setR _ dst v).frame_of_advance, GbBlock.setR_pc .., fun _ => GbBlock.getR_setR .., ?_⟩
  rintro rfl
  exact ⟨Memory.read_write_same .., GbBlock.setR_hlMem_outside (g.advance k) v⟩

section Indirect

variable {n : Figure}

/-- A store of `A` at a 16-bit address taken from the block (R204, R205). -/
theorem exists_gbCompletes_store {addr : GbBlock → Word} (hg : GbReady s g)
    (ho : o = s.runGb fun g => (g.memWrite (addr g) g.a, n)) :
    ∃ g', GbCompletes s o g' ∧ GbFrame [.mem] g g' ∧
      g'.mem.read (addr g).toNat = g.a ∧ SameOutside [(addr g).toNat] g.mem g'.mem :=
  ⟨_, .of_run hg ho n.pos, (GbKeeps.memWrite g _ _).frame, Memory.read_write_same ..,
    Memory.sameOutside_write _ _ _⟩

/-- A store of `A` at the old `HL`, which is then moved (R206, R207). -/
theorem exists_gbCompletes_storeHl {next : Word → Word} (hg : GbReady s g)
    (ho : o = s.runGb fun g => ((g.memWrite g.hl g.a).setHl (next g.hl), n)) :
    ∃ g', GbCompletes s o g' ∧ GbFrame [.mem, .h, .l] g g' ∧
      g'.mem.read g.hl.toNat = g.a ∧ SameOutside [g.hl.toNat] g.mem g'.mem ∧ g'.hl = next g.hl :=
  ⟨_, .of_run hg ho n.pos, ((GbKeeps.memWrite g _ _).trans (GbKeeps.setHl _ _)).frame,
    Memory.read_write_same .., Memory.sameOutside_write _ _ _, pairUp_hiByte_loByte _⟩

/-- A load of `A` from a 16-bit address taken from the block (R208, R209). -/
theorem exists_gbCompletes_load {addr : GbBlock → Word} (hg : GbReady s g)
    (ho : o = s.runGb fun g => ({ g with a := g.memRead (addr g) }, n)) :
    ∃ g', GbCompletes s o g' ∧ GbFrame [.a] g g' ∧ g'.a = g.mem.read (addr g).toNat :=
  ⟨_, .of_run hg ho n.pos, (GbKeeps.setA g _).frame, rfl⟩

/-- A load of `A` from the old `HL`, which is then moved (R210, R211). -/
theorem exists_gbCompletes_loadHl {next : Word → Word} (hg : GbReady s g)
    (ho : o = s.runGb fun g => ({ g with a := g.memRead g.hl }.setHl (next g.hl), n)) :
    ∃ g', GbCompletes s o g' ∧ GbFrame [.a, .h, .l] g g' ∧ g'.a = g.mem.read g.hl.toNat ∧
      g'.hl = next g.hl :=
  ⟨_, .of_run hg ho n.pos, ((GbKeeps.setA g _).trans (GbKeeps.setHl _ _)).frame, rfl,
    pairUp_hiByte_loByte _⟩

end Indirect

end Load

/-! ## The statements about loads, stores, push and pop -/

/-- Settles O23: no row of `gbWrites` that the statement names lists `F`, but for `POP AF`. -/
theorem gbFlagsKept : Obligations.GbFlagsKept := by
  intro i s t g g' hg h hg' hi
  have hf : .f ∉ gbWrites i := by
    cases i with
    | gbPop p => simpa [gbWrites] using hi
    | gbAddHl _ | gbBit _ _ | gbPrefixCb _ | gbCpR _ | gbCpN _
    | gbAddR _ | gbAdcR _ | gbSubR _ | gbSbcR _ | gbAndR _ | gbXorR _ | gbOrR _
    | gbAddN _ | gbAdcN _ | gbSubN _ | gbSbcN _ | gbAndN _ | gbXorN _ | gbOrN _ => simp at hi
    | _ => simp [gbWrites]
  exact (exec_gb_keeps hg h hg' .f).resolve_left hf

/-- Settles O39: the register form is an 8-bit load without operand bytes, the immediate form one with one. -/
theorem gbLoads8 : Obligations.GbLoads8 := by
  rintro s g i dst v len hg (⟨src, rfl, rfl, rfl⟩ | ⟨rfl, rfl⟩)
  · have hdone := exec_gbLdRR hg dst src
    exact exists_gbCompletes_setR (k := 0) ((GbBlock.advance_zero g).symm ▸ hdone)
  · exact exists_gbCompletes_setR (exec_gbLdRN hg dst v)

/-- Settles O43: the two bytes of a push lie at different addresses, and a pop joins the two at `SP`. -/
theorem gbPushAndPop : Obligations.GbPushAndPop := by
  intro s g p hg
  refine ⟨⟨_, exec_gbPush hg p, g.frame_push16 _, g.push16_sp_eq _, ?high, ?low, g.push16_outside _⟩,
    _, exec_gbPop hg p, (g.keeps_popTo p).frame, g.popTo_sp p, fun hp => ?pair, ?af⟩
  case high => rw [GbBlock.push16_read_high, hiByte_toNat]
  case low => rw [GbBlock.push16_read_low, loByte_toNat]
  case pair =>
    rw [GbBlock.popTo_getStackPair, if_neg hp]
    exact leWord_toNat ..
  case af =>
    rintro rfl
    exact g.popTo_af

/-- Settles O44: the value at the top of the stack after a push is the one pushed. -/
theorem gbPopAfterPush : Obligations.GbPopAfterPush := by
  intro s g p q hg
  obtain ⟨t, hpush, ht⟩ := (exec_gbPush hg p).ready hg
  obtain ⟨u, hpop, hu⟩ := (exec_gbPop ht q).ready ht
  have hvalue := (g.push16 (g.getStackPair p)).popTo_getStackPair q
  rw [GbBlock.popValue_push16] at hvalue
  exact ⟨t, u, _, hpush, hpop, hu, g.popTo_push16_sp _ q, g.frame_popTo_push16 _ q,
    fun hq => hvalue.trans (if_neg hq), fun hq => hvalue.trans (if_pos hq)⟩

/-- Settles O40: a pair of registers takes the two halves of the immediate, `SP` the whole. -/
theorem gbLoads16 : Obligations.GbLoads16 := by
  intro s g nn hg
  have hframe (p : Pair) : GbFrame (fieldsOfPair p ++ [.pc]) g ((g.advance 2).setPair p nn) :=
    (GbKeeps.setPair _ p nn).frame_of_advance
  exact ⟨⟨_, exec_gbLdPairNn hg .bc nn, hframe .bc, rfl, hiByte_toNat nn, loByte_toNat nn⟩,
    ⟨_, exec_gbLdPairNn hg .de nn, hframe .de, rfl, hiByte_toNat nn, loByte_toNat nn⟩,
    ⟨_, exec_gbLdPairNn hg .hl nn, hframe .hl, rfl, hiByte_toNat nn, loByte_toNat nn⟩,
    ⟨_, exec_gbLdPairNn hg .sp nn, hframe .sp, rfl, rfl⟩⟩

/-- Settles O41: two stores at an address from the block, and two at `HL` that then move it. -/
theorem gbIndirectStores : Obligations.GbIndirectStores := by
  intro s g hg
  exact ⟨exists_gbCompletes_store (addr := GbBlock.bc) hg rfl, exists_gbCompletes_store (addr := GbBlock.de) hg rfl,
    exists_gbCompletes_storeHl (next := (· + 1)) hg rfl, exists_gbCompletes_storeHl (next := (· - 1)) hg rfl⟩

/-- Settles O42: two loads from an address from the block, and two from `HL` that then move it. -/
theorem gbIndirectLoads : Obligations.GbIndirectLoads := by
  intro s g hg
  exact ⟨exists_gbCompletes_load (addr := GbBlock.bc) hg rfl, exists_gbCompletes_load (addr := GbBlock.de) hg rfl,
    exists_gbCompletes_loadHl (next := (· + 1)) hg rfl, exists_gbCompletes_loadHl (next := (· - 1)) hg rfl⟩

end Sys2Proof.Machine

namespace Sys2Proof.Machine

/-! # GB arithmetic, logic and compare (45_gb_alu R220 to R230) -/

/-! ## Results with their flags, as numbers -/

/-- The result of a subtraction, known as a number, names the pair that `aluSub` computes (R224, R225). -/
theorem aluSub_eq {a v result : Byte} {cin : Bool} {borrow : Nat} (hborrow : borrow = cin.toNat)
    (h : (result.toNat : Int) = ((a.toNat : Int) - v.toNat - borrow) % 256) :
    aluSub a v cin = (result, packFlags (decide (result = 0)) true
      (decide (a.toNat % 16 < v.toNat % 16 + borrow)) (decide (a.toNat < v.toNat + borrow))) := by
  subst hborrow
  have hresult : result = (aluSub a v cin).1 :=
    BitVec.eq_of_toNat_eq (Int.ofNat_inj.1 (h.trans (aluSub_toInt a v cin).symm))
  subst hresult
  rfl

/-- `CP` as an operation on `A`: the flags of `SUB`, and `A` as it was (R229). -/
def opCp (g : GbBlock) (v : Byte) : Byte × Byte := (g.a, (opSub g v).2)

/-! ## The two forms of an operation on `A` (R220) -/

/-- The rows of an operation on `A`: both forms run its handler, the immediate form with `PC` past its byte. -/
def RunsOnAcc (ofReg : Reg8 → Instr) (ofByte : Byte → Instr) (op : GbBlock → Byte → Byte × Byte) : Prop :=
  (∀ s r, exec (ofReg r) s = s.runGb fun g => (onAcc op g (g.getR r), s.cycles.ofAluR r)) ∧
    ∀ s n, exec (ofByte n) s = s.runGb fun g => (onAcc op (g.advance 1) n, s.cycles.aluN)

theorem runsOnAcc_add : RunsOnAcc .gbAddR .gbAddN opAdd := ⟨fun _ _ => rfl, fun _ _ => rfl⟩
theorem runsOnAcc_adc : RunsOnAcc .gbAdcR .gbAdcN opAdc := ⟨fun _ _ => rfl, fun _ _ => rfl⟩
theorem runsOnAcc_sub : RunsOnAcc .gbSubR .gbSubN opSub := ⟨fun _ _ => rfl, fun _ _ => rfl⟩
theorem runsOnAcc_sbc : RunsOnAcc .gbSbcR .gbSbcN opSbc := ⟨fun _ _ => rfl, fun _ _ => rfl⟩
theorem runsOnAcc_and : RunsOnAcc .gbAndR .gbAndN opAnd := ⟨fun _ _ => rfl, fun _ _ => rfl⟩
theorem runsOnAcc_xor : RunsOnAcc .gbXorR .gbXorN opXor := ⟨fun _ _ => rfl, fun _ _ => rfl⟩
theorem runsOnAcc_or : RunsOnAcc .gbOrR .gbOrN opOr := ⟨fun _ _ => rfl, fun _ _ => rfl⟩

/-- The tie of `opCp` to the handler of `CP`, which writes `F` only: `A` written with its own value is kept. -/
theorem runsOnAcc_cp : RunsOnAcc .gbCpR .gbCpN opCp := ⟨fun _ _ => rfl, fun _ _ => rfl⟩

section Forms

variable {s : State} {g : GbBlock} {i : Instr} {v : Byte} {len : Word}
  {ofReg : Reg8 → Instr} {ofByte : Byte → Instr}

/-- The fields that both forms of an operation write are those that its instruction writes. -/
theorem OperandForm.gbWrites_eq {l : List GbField} (hi : OperandForm ofReg ofByte g i v len)
    (hreg : ∀ r, gbWrites (ofReg r) = l) (hbyte : ∀ n, gbWrites (ofByte n) = l) : gbWrites i = l := by
  obtain ⟨r, rfl, -⟩ | ⟨rfl, -⟩ := hi
  · exact hreg r
  · exact hbyte v

/-- `CP` writes `F` only (R229), so an operation that writes `A` and `F` is not `CP`. -/
theorem OperandForm.not_cp (hi : OperandForm ofReg ofByte g i v len)
    (hreg : ∀ r, gbWrites (ofReg r) = [.a, .f]) (hbyte : ∀ n, gbWrites (ofByte n) = [.a, .f]) :
    ¬ OperandForm .gbCpR .gbCpN g i v len := by
  intro hcp
  have hwrites : gbWrites i = [.a, .f] := hi.gbWrites_eq hreg hbyte
  rw [hcp.gbWrites_eq (l := [.f]) (fun _ => rfl) (fun _ => rfl)] at hwrites
  exact absurd hwrites (by decide)

/-- Both forms run one operation, the immediate form with `PC` past its operand byte. -/
theorem OperandForm.completes {op : GbBlock → Byte → Byte × Byte} (hg : GbReady s g)
    (hi : OperandForm ofReg ofByte g i v len) (hrun : RunsOnAcc ofReg ofByte op) :
    ∃ k, len = BitVec.ofNat 16 k ∧ GbCompletes s (exec i s) (onAcc op (g.advance k) v) := by
  obtain ⟨r, rfl, rfl, rfl⟩ | ⟨rfl, rfl⟩ := hi
  · have hdone := GbCompletes.of_run hg (hrun.1 s r) (GbCycles.ofAluR_pos ..)
    exact ⟨0, rfl, g.advance_zero.symm ▸ hdone⟩
  · exact ⟨1, rfl, .of_run hg (hrun.2 s v) (Figure.pos _)⟩

/-- An operation on `A`, from the value and the flags that it computes wherever `PC` stands (R220, R221). -/
theorem exists_gbCompletes_onAcc {op : GbBlock → Byte → Byte × Byte} {acc : Byte} {z n h c : Bool}
    (hg : GbReady s g) (hi : OperandForm ofReg ofByte g i v len) (hrun : RunsOnAcc ofReg ofByte op)
    (hop : ∀ k, op (g.advance k) v = (acc, packFlags z n h c)) :
    ∃ g', GbCompletes s (exec i s) g' ∧ GbFrame [.a, .f, .pc] g g' ∧ g'.pc = g.pc + len ∧
      g'.a = acc ∧ FlagsAre g'.f z n h c := by
  obtain ⟨k, rfl, hdone⟩ := hi.completes hg hrun
  rw [onAcc, hop] at hdone
  exact ⟨_, hdone, (GbKeeps.setAcc _ _).frame_of_advance, rfl, rfl, packFlags_are z n h c⟩

/-- An addition with a carry-in, which is 0 or the flag C (R222, R223). -/
theorem exists_gbCompletes_add {op : GbBlock → Byte → Byte × Byte} {cin : Bool}
    (hg : GbReady s g) (hi : OperandForm ofReg ofByte g i v len) (hrun : RunsOnAcc ofReg ofByte op)
    (hop : ∀ k, op (g.advance k) v = aluAdd g.a v cin) :
    ∃ g', GbCompletes s (exec i s) g' ∧ GbFrame [.a, .f, .pc] g g' ∧ g'.pc = g.pc + len ∧
      g'.a.toNat = (g.a.toNat + v.toNat + cin.toNat) % 256 ∧
      FlagsAre g'.f (decide (g'.a = 0)) false
        (decide (g.a.toNat % 16 + v.toNat % 16 + cin.toNat > 15))
        (decide (g.a.toNat + v.toNat + cin.toNat > 255)) := by
  obtain ⟨g', hdone, hframe, hpc, ha, hflags⟩ := exists_gbCompletes_onAcc hg hi hrun hop
  exact ⟨g', hdone, hframe, hpc, ha ▸ aluAdd_toNat g.a v cin, ha.symm ▸ hflags⟩

/-- A subtraction that writes `A`, with a borrow-in, which is 0 or the flag C (R224, R225). -/
theorem exists_gbCompletes_sub {op : GbBlock → Byte → Byte × Byte} {cin : Bool} {borrow : Nat} {result : Byte}
    (hg : GbReady s g) (hi : OperandForm ofReg ofByte g i v len) (hborrow : borrow = cin.toNat)
    (hresult : (result.toNat : Int) = ((g.a.toNat : Int) - v.toNat - borrow) % 256)
    (hcp : ¬ OperandForm .gbCpR .gbCpN g i v len)
    (hrun : RunsOnAcc ofReg ofByte op) (hop : ∀ k, op (g.advance k) v = aluSub g.a v cin) :
    ∃ g', GbCompletes s (exec i s) g' ∧ GbFrame [.a, .f, .pc] g g' ∧ g'.pc = g.pc + len ∧
      (¬ OperandForm .gbCpR .gbCpN g i v len → g'.a = result) ∧
      (OperandForm .gbCpR .gbCpN g i v len → g'.a = g.a) ∧
      FlagsAre g'.f (decide (result = 0)) true
        (decide (g.a.toNat % 16 < v.toNat % 16 + borrow)) (decide (g.a.toNat < v.toNat + borrow)) := by
  obtain ⟨g', hdone, hframe, hpc, ha, hflags⟩ :=
    exists_gbCompletes_onAcc hg hi hrun fun k => (hop k).trans (aluSub_eq hborrow hresult)
  exact ⟨g', hdone, hframe, hpc, fun _ => ha, fun h => absurd h hcp, hflags⟩

end Forms

/-! ## The statements about arithmetic, logic and compare -/

/-- Settles O45: one addition, with the carry-in 0 for `ADD` and the flag C for `ADC`. -/
theorem gbAdds : Obligations.GbAdds := by
  rintro s g i v len cin hg (⟨hi, rfl⟩ | ⟨hi, rfl⟩)
  · exact exists_gbCompletes_add (cin := false) hg hi runsOnAcc_add fun _ => rfl
  · exact exists_gbCompletes_add (cin := g.flagC) hg hi runsOnAcc_adc fun _ => rfl

/-- Settles O46: one subtraction; `SUB` and `SBC` leave its result in `A`, `CP` leaves `A`. -/
theorem gbSubtractsAndCompare : Obligations.GbSubtractsAndCompare := by
  rintro s g i v len cin result hg hresult (⟨hi, hcin⟩ | ⟨hi, hcin⟩ | ⟨hi, hcin⟩)
  · have hcp := hi.not_cp (fun _ => rfl) (fun _ => rfl)
    exact exists_gbCompletes_sub (cin := false) hg hi hcin hresult hcp runsOnAcc_sub fun _ => rfl
  · have hcp := hi.not_cp (fun _ => rfl) (fun _ => rfl)
    exact exists_gbCompletes_sub (cin := g.flagC) hg hi hcin hresult hcp runsOnAcc_sbc fun _ => rfl
  · have hop := congrArg (g.a, ·.2) (aluSub_eq (cin := false) hcin hresult)
    obtain ⟨g', hdone, hframe, hpc, ha, hflags⟩ := exists_gbCompletes_onAcc hg hi runsOnAcc_cp fun _ => hop
    exact ⟨g', hdone, hframe, hpc, fun hcp => absurd hi hcp, fun _ => ha, hflags⟩

/-- Settles O47: three results, each with the flags of `aluLogic`. -/
theorem gbLogic : Obligations.GbLogic := by
  rintro s g i v len result half hg (⟨hi, rfl, rfl⟩ | ⟨hi, rfl, rfl⟩ | ⟨hi, rfl, rfl⟩)
  · exact exists_gbCompletes_onAcc hg hi runsOnAcc_and fun _ => rfl
  · exact exists_gbCompletes_onAcc hg hi runsOnAcc_xor fun _ => rfl
  · exact exists_gbCompletes_onAcc hg hi runsOnAcc_or fun _ => rfl

/-- `ADD HL,rr` leaves the sum of the old `HL` and the pair in `HL` (R230). -/
theorem GbBlock.addToHl_hl_toNat (g : GbBlock) (v : Word) :
    (g.addToHl v).hl.toNat = (g.hl.toNat + v.toNat) % 65536 := by
  have hhl : (g.addToHl v).hl = u16 (g.hl.toNat + v.toNat) := pairUp_hiByte_loByte _
  rw [hhl, ← Nat.cast_add, u16_toNat]

/-- Settles O48: the sum is narrowed to 16 bits, and the flags keep Z. -/
theorem gbAddToHl : Obligations.GbAddToHl := by
  intro s g p hg
  have hdone : GbCompletes s (exec (.gbAddHl p) s) (g.addToHl (g.getPair p)) :=
    .of_run (f := fun g => (g.addToHl (g.getPair p), s.cycles.addHl)) hg rfl (Figure.pos _)
  exact ⟨_, hdone, (GbKeeps.addToHl g _).frame, g.addToHl_hl_toNat _, packFlags_are ..⟩

end Sys2Proof.Machine

namespace Sys2Proof.Machine

/-! # GB jumps, calls, returns, halts and the interrupt-enable bit (46_gb_control) -/

/-! ## The block after a transfer -/

/-- The block after `PC` is replaced (R250 to R253). -/
def GbBlock.jumped (g : GbBlock) (pc : Word) : GbBlock := { g with pc := pc }

/-- The block after `CALL nn` has pushed the address behind its two operand bytes (R254). -/
def GbBlock.called (g : GbBlock) (nn : Word) : GbBlock := (g.push16 (g.pc + 2)).jumped nn

/-- The block after `RET` (R255). -/
def GbBlock.returned (g : GbBlock) : GbBlock := g.popped.jumped g.popValue

theorem GbKeeps.jumped (g : GbBlock) (pc : Word) : GbKeeps [.pc] g (g.jumped pc) := GbKeeps.setPc g pc

theorem GbKeeps.called (g : GbBlock) (nn : Word) : GbKeeps [.mem, .sp, .pc] g (g.called nn) :=
  (GbKeeps.push16 g _).trans (GbKeeps.jumped _ nn)

theorem GbKeeps.returned (g : GbBlock) : GbKeeps [.sp, .pc] g g.returned :=
  (GbKeeps.setSp g _).trans (GbKeeps.jumped _ _)

theorem GbBlock.returned_sp (g : GbBlock) : g.returned.sp = g.sp + 2 := g.popped_sp

theorem GbBlock.returned_pc_toNat (g : GbBlock) :
    g.returned.pc.toNat = 256 * (g.mem.read (g.sp + 1).toNat).toNat + (g.mem.read g.sp.toNat).toNat :=
  leWord_toNat ..

/-- A return takes the address that the call before it pushed. -/
theorem GbBlock.returned_called_pc (g : GbBlock) (nn : Word) : (g.called nn).returned.pc = g.pc + 2 :=
  g.popValue_push16 _

theorem GbBlock.returned_called_sp (g : GbBlock) (nn : Word) : (g.called nn).returned.sp = g.sp :=
  g.popped_push16_sp _

/-- A call and a return change the bytes of memory and `PC`: `SP` is back. -/
theorem GbBlock.frame_returned_called (g : GbBlock) (nn : Word) :
    GbFrame [.mem, .pc] g (g.called nn).returned := by
  intro k hk
  by_cases hsp : k = .sp
  · subst hsp
    exact g.returned_called_sp nn
  · obtain ⟨hmem, hpc⟩ : k ≠ .mem ∧ k ≠ .pc := by simpa using hk
    exact ((GbKeeps.called g nn).trans (GbKeeps.returned _)).frame k (by simp [hmem, hsp, hpc])

/-- The target of a relative jump: the signed byte added to the address behind it, modulo 65536 (R252). -/
theorem relativeTarget_toNat (pc : Word) (e : Byte) :
    ((pc + 1 + e.signExtend 16).toNat : Int) = ((pc.toNat : Int) + 1 + e.toInt) % 65536 := by
  have hoffset : ((e.signExtend 16).toNat : Int) = e.toInt % 65536 := by
    rw [BitVec.signExtend, BitVec.toNat_ofInt]
    omega
  have hone : (1 : Word).toNat = 1 := rfl
  rw [BitVec.toNat_add, BitVec.toNat_add, hone]
  omega

/-! ## What each instruction does -/

section Control

variable {s : State} {g : GbBlock} {o : Host.Outcome State Fault Refusal}

theorem exec_gbJp (hg : GbReady s g) (nn : Word) : GbCompletes s (exec (.gbJp nn) s) (g.jumped nn) :=
  .of_run (f := fun g => (g.jumped nn, s.cycles.jp)) hg rfl (Figure.pos _)

theorem exec_gbJr (hg : GbReady s g) (e : Byte) :
    GbCompletes s (exec (.gbJr e) s) (g.jumped (g.pc + 1 + e.signExtend 16)) :=
  .of_run (f := fun g => (g.jumped (g.pc + 1 + e.signExtend 16), s.cycles.jr)) hg rfl (Figure.pos _)

theorem exec_gbCall (hg : GbReady s g) (nn : Word) : GbCompletes s (exec (.gbCall nn) s) (g.called nn) :=
  .of_run (f := fun g => (g.called nn, s.cycles.call)) hg rfl (Figure.pos _)

theorem exec_gbRet (hg : GbReady s g) : GbCompletes s (exec .gbRet s) g.returned :=
  .of_run (f := fun g => (g.returned, s.cycles.ret)) hg rfl (Figure.pos _)

/-- An instruction whose handler jumps on a condition and else moves `PC` past its k operand bytes (R251, R253). -/
theorem exists_gbCompletes_jumpIf {cond : GbBlock → Bool} {target : GbBlock → Word} {count : Bool → Nat} {k : Nat}
    {holds : Prop} (hg : GbReady s g)
    (ho : o = s.runGb fun g => (if cond g then g.jumped (target g) else g.advance k, count (cond g)))
    (hcount : ∀ taken, 0 < count taken) (hcond : holds ↔ cond g = true) :
    ∃ g', GbCompletes s o g' ∧ GbFrame [.pc] g g' ∧
      (holds → g'.pc = target g) ∧ (¬ holds → g'.pc = g.pc + BitVec.ofNat 16 k) := by
  have hdone := GbCompletes.of_run hg ho (hcount _)
  by_cases htaken : holds
  · have hjump : (if cond g then g.jumped (target g) else g.advance k) = g.jumped (target g) :=
      if_pos (hcond.1 htaken)
    exact ⟨_, hjump ▸ hdone, (GbKeeps.jumped g _).frame, fun _ => rfl, fun hnot => absurd htaken hnot⟩
  · have hpast : (if cond g then g.jumped (target g) else g.advance k) = g.advance k :=
      if_neg (mt hcond.2 htaken)
    exact ⟨_, hpast ▸ hdone, (GbKeeps.advance g k).frame, fun h => absurd h htaken, fun _ => rfl⟩

/-- An instruction whose handler halts the session (60_exceptions R284). -/
theorem GbHalts.of_run {cause : HaltCause} {info : Word} (hg : GbReady s g)
    (ho : o = s.runGb fun g => (g.halt cause info, cyclesHalt)) : GbHalts s o g cause info :=
  ho ▸ State.runGb_done (fun g => (g.halt cause info, cyclesHalt)) hg

/-- `DI` and `EI` (R262, R263). -/
theorem GbCompletes.of_setIme {ime : Bool} (hg : GbReady s g)
    (ho : o = s.runGb fun g => ({ g with ime := ime }, s.cycles.diEi)) : GbCompletes s o { g with ime := ime } :=
  .of_run hg ho (Figure.pos _)

end Control

/-! ## The statements about control -/

/-- Settles O51: the value at the top of the stack after the call is the address behind it. -/
theorem gbReturnAfterCall : Obligations.GbReturnAfterCall := by
  intro s g nn hg
  obtain ⟨t, hcall, ht⟩ := (exec_gbCall hg nn).ready hg
  obtain ⟨u, hret, hu⟩ := (exec_gbRet ht).ready ht
  exact ⟨t, u, _, hcall, hret, hu, g.returned_called_pc nn, g.frame_returned_called nn⟩

/-- Settles O49: two jumps, and the same two on a condition. -/
theorem gbJumps : Obligations.GbJumps := by
  intro s g cc holds nn e hg hcc
  have hcond : holds ↔ g.cond cc = true := by
    obtain ⟨rfl, h⟩ | ⟨rfl, h⟩ | ⟨rfl, h⟩ | ⟨rfl, h⟩ := hcc
    · exact h.trans (Iff.of_eq (Bool.not_eq_true' _)).symm
    · exact h
    · exact h.trans (Iff.of_eq (Bool.not_eq_true' _)).symm
    · exact h
  obtain ⟨g', hdone, hframe, htaken, hpast⟩ :=
    exists_gbCompletes_jumpIf (o := exec (.gbJrCc cc e) s) (cond := (·.cond cc))
      (target := fun g => g.pc + 1 + e.signExtend 16) (k := 1) hg rfl (GbCycles.ofJrCc_pos _) hcond
  exact ⟨⟨_, exec_gbJp hg nn, (GbKeeps.jumped g _).frame, rfl⟩,
    exists_gbCompletes_jumpIf (cond := (·.cond cc)) (target := fun _ => nn) (k := 2) hg rfl
      (GbCycles.ofJpCc_pos _) hcond,
    ⟨_, exec_gbJr hg e, (GbKeeps.jumped g _).frame, relativeTarget_toNat g.pc e⟩,
    g', hdone, hframe, fun h => htaken h ▸ relativeTarget_toNat g.pc e, hpast⟩

/-- Settles O50: a call is a push and a jump, a return takes `PC` from the two bytes at `SP`. -/
theorem gbCallAndReturn : Obligations.GbCallAndReturn := by
  intro s g nn hg
  refine ⟨⟨_, exec_gbCall hg nn, (GbKeeps.called g nn).frame, rfl, g.push16_sp_eq _, ?high, ?low,
      g.push16_outside _⟩,
    _, exec_gbRet hg, (GbKeeps.returned g).frame, g.returned_sp, g.returned_pc_toNat⟩
  case high => exact (congrArg BitVec.toNat (g.push16_read_high _)).trans (hiByte_toNat _)
  case low => exact (congrArg BitVec.toNat (g.push16_read_low _)).trans (loByte_toNat _)

/-- Settles O52: two halts, each with its own opcode, and two writes of `ime`. -/
theorem gbHaltsAndInterruptEnable : Obligations.GbHaltsAndInterruptEnable := by
  intro s g hg
  exact ⟨.of_run hg rfl, .of_run hg rfl, .of_setIme hg rfl, .of_setIme hg rfl⟩

end Sys2Proof.Machine

namespace Sys2Proof.Machine

/-! # GB CB-prefixed bit instructions (47_gb_cb) -/

/-! ## The bit that a mask clears or sets (R272, R273) -/

/-- The bits of `1 << b`, the mask of `RES` and `SET`. -/
theorem getLsbD_bitMask (k : BitVec 3) (j : Nat) :
    (1#8 <<< k.toNat).getLsbD j = decide (j = k.toNat) := by
  rw [← BitVec.twoPow_eq, BitVec.getLsbD_twoPow, decide_eq_true k.isLt, Bool.true_and, decide_eq_decide]
  exact eq_comm

theorem clearBit_getLsbD {j : Nat} (k : BitVec 3) (v : Byte) (hj : j < 8) :
    (clearBit k v).getLsbD j = if j = k.toNat then false else v.getLsbD j := by
  rw [clearBit, BitVec.getLsbD_and, BitVec.getLsbD_not, getLsbD_bitMask]
  split_ifs with hbit <;> simp [hbit, hj]

theorem setBit_getLsbD (k : BitVec 3) (v : Byte) (j : Nat) :
    (setBit k v).getLsbD j = if j = k.toNat then true else v.getLsbD j := by
  rw [setBit, BitVec.getLsbD_or, getLsbD_bitMask]
  split_ifs with hbit <;> simp [hbit]

/-! ## What the halt of an unmatched sub-opcode leaves (R270) -/

theorem Status.invalid_eq_haltedStatus (st : Status) (raw : Word) :
    st.invalid raw = haltedStatus 0xFFFF .invalidOpcode raw := rfl

theorem pairUp_CB (sub : Byte) : pairUp 0xCB sub = BitVec.ofNat 16 (0xCB00 + sub.toNat) := by
  apply BitVec.eq_of_toNat_eq
  have hprefix : (0xCB : Byte).toNat = 0xCB := rfl
  have hsub := sub.isLt
  rw [pairUp_toNat, BitVec.toNat_ofNat, hprefix]
  omega

/-! ## The instruction that a sub-opcode selects (R270, 30_encoding R91) -/

theorem fieldD_eq_ofNat (sub : Byte) : fieldD sub = BitVec.ofNat 3 (sub.toNat / 8) :=
  congrArg (BitVec.ofNat 3) (Nat.shiftRight_eq_div_pow sub.toNat 3)

/-- A sub-opcode that matches a row is decoded to the instruction of its block of 64. -/
theorem decodeCb_of_matched {sub : Byte} (h : 0x40 ≤ sub.toNat) :
    decodeCb sub =
      (if sub.toNat < 0x80 then Instr.gbBit else if sub.toNat < 0xC0 then .gbRes else .gbSet)
        (BitVec.ofNat 3 (sub.toNat / 8)) (reg8Of (BitVec.ofNat 3 sub.toNat)) := by
  rw [decodeCb, fetch_cbTable, if_neg (Nat.not_lt.2 h), fieldD_eq_ofNat, fieldS_eq_ofNat]
  split_ifs <;> rfl

/-- The handler of 0xCB runs what the decoder makes of its sub-opcode: both do the same lookup. -/
theorem exec_gbPrefixCb (sub : Byte) (s : State) : exec (.gbPrefixCb sub) s = exec (decodeCb sub) s := by
  change execGbPrefixCb sub s = _
  cases hfetch : fetch cbTable (sub.setWidth 16) with
  | none =>
    simp only [decodeCb, hfetch]
    rfl
  | some op => cases op <;> simp only [execGbPrefixCb, decodeCb, hfetch] <;> rfl

/-! ## What each instruction does -/

section Cb

variable {s : State} {g : GbBlock}

/-- `BIT` tests the operand as it was before the move of `PC` past the sub-opcode, which no operand sees. -/
theorem exec_gbBit (hg : GbReady s g) (k : BitVec 3) (r : Reg8) :
    GbCompletes s (exec (.gbBit k r) s) ((g.advance 1).testBit k (g.getR r)) :=
  .of_run (f := fun g => ((g.advance 1).testBit k (g.getR r), s.cycles.ofBit r)) hg rfl (GbCycles.ofBit_pos ..)

theorem exec_gbRes (hg : GbReady s g) (k : BitVec 3) (r : Reg8) :
    GbCompletes s (exec (.gbRes k r) s) ((g.advance 1).setR r (clearBit k (g.getR r))) :=
  .of_run (f := fun g => ((g.advance 1).setR r (clearBit k (g.getR r)), s.cycles.ofResSet r)) hg rfl
    (GbCycles.ofResSet_pos ..)

theorem exec_gbSet (hg : GbReady s g) (k : BitVec 3) (r : Reg8) :
    GbCompletes s (exec (.gbSet k r) s) ((g.advance 1).setR r (setBit k (g.getR r))) :=
  .of_run (f := fun g => ((g.advance 1).setR r (setBit k (g.getR r)), s.cycles.ofResSet r)) hg rfl
    (GbCycles.ofResSet_pos ..)

/-- `RES` and `SET`: an operand written, behind the sub-opcode, with a value known bit by bit (R272, R273). -/
theorem exists_gbCompletes_setR_bits {o : Host.Outcome State Fault Refusal} {r : Reg8} {v : Byte}
    {bits : Nat → Bool} (h : GbCompletes s o ((g.advance 1).setR r v))
    (hbits : ∀ j, j < 8 → v.getLsbD j = bits j) :
    ∃ (g' : GbBlock) (w : Byte), GbCompletes s o g' ∧ GbFrame [fieldOfReg r, .pc] g g' ∧ g'.pc = g.pc + 1 ∧
      (∀ j, j < 8 → w.getLsbD j = bits j) ∧ (r ≠ .hlMem → g'.getR r = w) ∧
      (r = .hlMem → g'.mem.read g.hl.toNat = w ∧ SameOutside [g.hl.toNat] g.mem g'.mem) := by
  obtain ⟨g', hdone, hframe, hpc, hreg, hmem⟩ := exists_gbCompletes_setR h
  exact ⟨g', v, hdone, hframe, hpc, hbits, hreg, hmem⟩

/-- The sub-opcodes below 0x40 match no row (30_encoding R92), and the session halts behind them. -/
theorem exec_gbPrefixCb_unmatched {sub : Byte} (hg : GbReady s g) (h : sub.toNat < 0x40) :
    ∃ t, exec (.gbPrefixCb sub) s = .next t ∧ GbDone s t (handleNoSub sub (g.advance 1)).1 (.cycles 0) := by
  have hrun : exec (.gbPrefixCb sub) s = s.runGb fun g => handleNoSub sub (g.advance 1) := by
    change execGbPrefixCb sub s = _
    simp only [execGbPrefixCb, (fetch_cbTable_eq_none_iff sub).2 h]
  exact hrun ▸ State.runGb_done (fun g => handleNoSub sub (g.advance 1)) hg

end Cb

/-! ## The statements about bit instructions -/

/-- Settles O53: `BIT` writes the four flags, `RES` and `SET` one operand with one bit changed. -/
theorem gbBitInstructions : Obligations.GbBitInstructions := by
  intro s g k r hg
  have hbit : GbFrame [.f, .pc] g ((g.advance 1).testBit k (g.getR r)) :=
    (GbKeeps.writeF (g.advance 1) _).frame_of_advance
  exact ⟨⟨_, exec_gbBit hg k r, hbit, rfl, packFlags_are ..⟩,
    exists_gbCompletes_setR_bits (exec_gbRes hg k r) fun _ hj => clearBit_getLsbD k _ hj,
    exists_gbCompletes_setR_bits (exec_gbSet hg k r) fun j _ => setBit_getLsbD k _ j⟩

/-- Settles O54: below 0x40 the lookup fails; above, 0xCB runs the instruction decoded from the sub-opcode. -/
theorem gbPrefixedLookup : Obligations.GbPrefixedLookup := by
  intro s g sub hg
  refine ⟨fun hsub => ?unmatched, fun hsub => ?matched⟩
  case unmatched =>
    obtain ⟨t, hnext, hdone⟩ := exec_gbPrefixCb_unmatched hg hsub
    rw [handleNoSub, Status.invalid_eq_haltedStatus, pairUp_CB] at hdone
    exact ⟨t, hnext, hdone⟩
  case matched =>
    rw [exec_gbPrefixCb, decodeCb_of_matched hsub]
    obtain ⟨⟨g₁, hbit, -, hpc₁, -⟩, ⟨g₂, -, hres, -, hpc₂, -⟩, g₃, -, hset, -, hpc₃, -⟩ :=
      gbBitInstructions s g (BitVec.ofNat 3 (sub.toNat / 8)) (reg8Of (BitVec.ofNat 3 sub.toNat)) hg
    split_ifs
    · exact ⟨g₁, hbit, hpc₁, rfl⟩
    · exact ⟨g₂, hres, hpc₂, rfl⟩
    · exact ⟨g₃, hset, hpc₃, rfl⟩

end Sys2Proof.Machine

namespace Sys2Proof.Machine

/-! # Ticks that halt the session (60_exceptions R281 to R283) -/

/-! ## One run after another -/

theorem Engine.SameButActive.trans {β : Type} {e e' e'' : Engine β} (h : e.SameButActive e')
    (h' : e'.SameButActive e'') : e.SameButActive e'' := by
  obtain ⟨htable, hctx, hnext, hblocks⟩ := h
  obtain ⟨htable', hctx', hnext', hblocks'⟩ := h'
  exact ⟨htable'.trans htable, hctx'.trans hctx, hnext'.trans hnext,
    fun id hid => (hblocks' id (hctx ▸ hid)).trans (hblocks id hid)⟩

theorem C8Done.trans {s t u : State} {b b' : C8Block} {r r' : Reply} (h : C8Done s t b r)
    (h' : C8Done t u b' r') : C8Done s u b' r' := by
  obtain ⟨-, hchip8, hgb, harch, hinbox, hdraws, hallocs, -, hparams⟩ := h
  obtain ⟨hactive, hchip8', hgb', harch', hinbox', hdraws', hallocs', hreply, hparams'⟩ := h'
  exact ⟨hactive, hchip8.trans hchip8', hgb'.trans hgb, harch'.trans harch, hinbox'.trans hinbox,
    hdraws'.trans hdraws, hallocs'.trans hallocs, hreply, hparams'.trans hparams⟩

theorem GbDone.trans {s t u : State} {g g' : GbBlock} {r r' : Reply} (h : GbDone s t g r)
    (h' : GbDone t u g' r') : GbDone s u g' r' := by
  obtain ⟨-, hgb, hchip8, harch, hinbox, hdraws, hallocs, -, hparams⟩ := h
  obtain ⟨hactive, hgb', hchip8', harch', hinbox', hdraws', hallocs', hreply, hparams'⟩ := h'
  exact ⟨hactive, hgb.trans hgb', hchip8'.trans hchip8, harch'.trans harch, hinbox'.trans hinbox,
    hdraws'.trans hdraws, hallocs'.trans hallocs, hreply, hparams'.trans hparams⟩

/-! ## The halts before an instruction runs (R281, R282) -/

/-- An empty table matches nothing (10_state R11). -/
theorem fetch_tableNow_eq_none {κ : Type} {built : Bool} {table : List (Entry κ)} {op : Word}
    (h : built = false ∨ fetch table op = none) : fetch (tableNow built table) op = none := by
  obtain rfl | hnone := h
  · rfl
  · cases built
    · rfl
    · exact hnone

theorem c8FaultAddress_eq_ofNat (base : Word) : c8FaultAddress base = BitVec.ofNat 16 (max base.toNat 0x1000) := by
  unfold c8FaultAddress
  by_cases hlow : base < 0x1000
  · have hle : base.toNat ≤ 0x1000 := Nat.le_of_lt hlow
    rw [if_pos hlow, max_eq_right hle]
    rfl
  · have hle : 0x1000 ≤ base.toNat := Nat.le_of_not_lt hlow
    rw [if_neg hlow, max_eq_left hle, BitVec.ofNat_toNat, BitVec.setWidth_eq]

section TickHalts

variable {s : State} {b : C8Block} {g : GbBlock}

theorem tickC8_of_readFault (hb : s.chip8.active = some b) (hrun : b.status.run = .running)
    (hpc : 0xFFE < b.pc.toNat) : tickC8 s = .next ((s.putC8 b.readFault).answer (.cycles 0)) := by
  have hpc : b.pc > 0xFFE := hpc
  simp only [tickC8, hb, hrun, hpc, if_true, if_false, reduceCtorEq]

theorem tickC8_of_unmatched (hb : s.chip8.active = some b) (hrun : b.status.run = .running)
    (hpc : b.pc.toNat ≤ 0xFFE) (hnone : s.chip8.tableBuilt = false ∨ fetch c8Table b.opcode = none) :
    tickC8 s = .next ((s.putC8 (b.noEntry b.opcode)).answer (.cycles 0)) := by
  have hpc : ¬ b.pc > 0xFFE := Nat.not_lt.2 hpc
  simp only [tickC8, hb, hrun, hpc, decodeC8, fetch_tableNow_eq_none hnone, if_false, reduceCtorEq]

theorem tickGb_of_unmatched (hg : s.gb.active = some g) (hrun : g.status.run = .running)
    (hnone : s.gb.tableBuilt = false ∨ fetch gbTable g.opcode = none) :
    tickGb s = .next ((s.putGb (g.noEntry g.opcode)).answer (.cycles 0)) := by
  have hfetch : fetch (tableNow s.gb.tableBuilt gbTable) ((g.memRead g.pc).setWidth 16) = none :=
    fetch_tableNow_eq_none hnone
  simp only [tickGb, hg, hrun, GbBlock.fetched, decodeGb, hfetch, if_false, reduceCtorEq]

end TickHalts

theorem C8Block.readFault_eq (b : C8Block) :
    b.readFault = { b with
      status := haltedStatus 0xFFFF .busFault (BitVec.ofNat 16 (max b.pc.toNat 0x1000)) } := by
  rw [← c8FaultAddress_eq_ofNat]
  rfl

theorem C8Block.noEntry_eq (b : C8Block) (op : Word) :
    b.noEntry op = { b with pc := b.pc + 2, status := haltedStatus 0xFFFF .invalidOpcode op } := rfl

theorem GbBlock.noEntry_eq (g : GbBlock) (op : Word) :
    g.noEntry op = { g with pc := g.pc + 1, status := haltedStatus 0xFFFF .invalidOpcode op } := rfl

/-! ## The halt of an unmatched sub-opcode (47_gb_cb R270) -/

/-- 0xCB stays an instruction of its own when its sub-opcode matches no row (log 9). -/
theorem decode_gbPrefixCb {sub : Byte} (hsub : fetch cbTable (sub.setWidth 16) = none) (rest : List Byte) :
    decode .gb (0xCB :: sub :: rest) = .ok (.gbPrefixCb sub, rest) :=
  decode_encode_gb (i := .gbPrefixCb sub) rfl (decide_eq_true ((fetch_cbTable_eq_none_iff sub).1 hsub)) rest

/-- The block behind an opcode byte and its unmatched sub-opcode. -/
theorem handleNoSub_dispatched (g : GbBlock) (op : Word) (sub : Byte) :
    (handleNoSub sub ((g.dispatched op).advance 1)).1 = { g with
      pc := g.pc + 2,
      status := haltedStatus 0xFFFF .invalidOpcode (BitVec.ofNat 16 (0xCB00 + sub.toNat)) } := by
  have hpc : g.pc + 1 + 1 = g.pc + 2 := BitVec.add_assoc g.pc 1 1
  rw [← pairUp_CB, ← hpc]
  rfl

/-! ## The halts that a CHIP-8 handler raises (R282, R283) -/

/-- The word whose encoding stands at `PC` is the raw opcode. -/
theorem C8Block.opcode_of_decode {b : C8Block} {i : Instr} {w : Word}
    (hdec : decode .chip8 b.opcodeBytes = .ok (i, [])) (hw : encode i = beBytes w) : b.opcode = w := by
  obtain ⟨hbytes, -, -⟩ := encode_decode_c8 hdec
  rw [List.append_nil, hw] at hbytes
  obtain ⟨hhi, hrest⟩ := List.cons.inj hbytes
  obtain ⟨hlo, -⟩ := List.cons.inj hrest
  rw [C8Block.opcode, hhi, hlo, beWord_extract]

/-- A Tick whose instruction halts the session leaves `PC` past the opcode and the opcode recorded. -/
theorem step_c8_halts {s : State} {b : C8Block} {i : Instr} {cause : HaltCause} {info : Word}
    (htick : AboutToTick s) (hb : C8Ready s b) (hrun : b.status.Running) (hbuilt : s.chip8.tableBuilt = true)
    (hpc : b.pc.toNat ≤ 0xFFE) (hdec : decode .chip8 b.opcodeBytes = .ok (i, []))
    (hhalts : ∀ s₀, C8Ready s₀ (b.dispatched b.opcode) → C8Halts s₀ (exec i s₀) (b.dispatched b.opcode) cause info) :
    C8Completes s.taken (step s) { b with pc := b.pc + 2, status := haltedStatus b.opcode cause info } 0 := by
  obtain ⟨_, s₀, rfl, hdone, hready, -, hstep⟩ := stepRunsDecodedC8 s b i htick hb hrun hbuilt hpc hdec
  obtain ⟨t, hnext, hhalted⟩ := hhalts s₀ hready
  exact ⟨t, hstep.trans hnext, hdone.trans hhalted⟩

/-! ## The statements about halts -/

/-- Settles O9: the lookup fails when only `PC` has moved; behind 0xCB it is the handler that looks up in vain. -/
theorem unmatchedOpcodeHalts : Obligations.UnmatchedOpcodeHalts := by
  refine ⟨?chip8, ?gb, ?cb⟩
  case chip8 =>
    intro s b htick hb hrun hpc hnone
    have hb := c8Ready_taken hb
    rw [step_tickC8 htick hb.1, tickC8_of_unmatched hb.2 hrun hpc hnone, ← C8Block.noEntry_eq]
    exact ⟨_, rfl, State.done_putC8 _ _ hb.2⟩
  case gb =>
    intro s g htick hg hrun hnone
    have hg := gbReady_taken hg
    rw [step_tickGb htick hg.1, tickGb_of_unmatched hg.2 hrun hnone, ← GbBlock.noEntry_eq]
    exact ⟨_, rfl, State.done_putGb _ _ hg.2⟩
  case cb =>
    rintro s g sub htick hg hrun hbuilt hop rfl hsub
    have hdec := decode_gbPrefixCb hsub [g.memRead (g.pc + 2)]
    rw [← hop] at hdec
    obtain ⟨_, s₀, rfl, hdone, hready, -, hstep⟩ := stepRunsDecodedGb s g _ _ htick hg hrun hbuilt hdec
    obtain ⟨t, hnext, hhalted⟩ := exec_gbPrefixCb_unmatched hready ((fetch_cbTable_eq_none_iff _).1 hsub)
    rw [← handleNoSub_dispatched g g.opcode]
    exact ⟨t, hstep.trans hnext, hdone.trans hhalted⟩

/-- Settles O10: the read faults in the Tick itself, and each memory instruction checks its addresses first. -/
theorem busFaults : Obligations.BusFaults := by
  refine ⟨?read, ?access⟩
  case read =>
    intro s b htick hb hrun hpc
    have hb := c8Ready_taken hb
    rw [step_tickC8 htick hb.1, tickC8_of_readFault hb.2 hrun hpc, ← C8Block.readFault_eq]
    exact ⟨_, rfl, State.done_putC8 _ _ hb.2⟩
  case access =>
    rintro s b i n htick hb hrun hbuilt hpc hdec hi ⟨k, hk, hout⟩
    refine step_c8_halts htick hb hrun hbuilt hpc hdec fun s₀ hb₀ => ?_
    have hn : n ≠ 0 := Nat.ne_zero_of_lt hk
    have hout : 4096 < (b.dispatched b.opcode).i.toNat + n := by
      rw [C8Block.dispatched_i]
      omega
    obtain ⟨x, y, rows, rfl, rfl⟩ | ⟨x, rfl, rfl⟩ | ⟨x, rfl, rfl⟩ | ⟨x, rfl, rfl⟩ := hi
    · exact .of_guard (f := (·.drawn x y rows)) hb₀ rfl hn hout
    · exact .of_guard (f := fun b => b.storeDigits (b.getV x)) hb₀ rfl hn hout
    · exact .of_guard (f := (storeRegs · (x.toNat + 1))) hb₀ rfl hn hout
    · exact .of_guard (f := (loadRegs · (x.toNat + 1))) hb₀ rfl hn hout

/-- Settles O11: the raise carries the raw opcode, which is the encoding of the instruction. -/
theorem stackFaults : Obligations.StackFaults := by
  intro s b i htick hb hrun hbuilt hpc hdec hi
  refine step_c8_halts htick hb hrun hbuilt hpc hdec fun s₀ hb₀ => ?_
  obtain ⟨⟨nnn, rfl⟩, hfull⟩ | ⟨rfl, hempty⟩ := hi
  · have hop : b.opcode = wordNNN 0x2 nnn := C8Block.opcode_of_decode hdec rfl
    have hhalts := exec_c8Call_of_full hb₀ nnn (by simp [hfull])
    rwa [← hop] at hhalts
  · have hop : b.opcode = 0x00EE := C8Block.opcode_of_decode hdec rfl
    have hhalts := exec_c8Ret_of_unused hb₀ (by simp [hempty])
    rwa [← hop] at hhalts

end Sys2Proof.Machine

namespace Sys2Proof.Machine

/-! # Halts are precise (60_exceptions R284) -/

section Precise

variable {i : Instr} {s t : State}

/-- A CHIP-8 instruction that leaves the session halted raised: nothing but the status has changed. -/
theorem exec_c8_precise {b b' : C8Block} (hb : C8Ready s b) (hrun : b.status.run = .running)
    (h : exec i s = .next t) (hb' : C8Ready t b') (hhalt : b'.status.run = .halted) :
    t.reply = .cycles 0 ∧ b'.status.haltCause ≠ .none ∧ b' = { b with status := b'.status } := by
  have hchanged : b'.status ≠ b.status := fun hsame => by simp [hsame, hrun] at hhalt
  obtain ⟨_, hc, ⟨-, hsame⟩ | ⟨hreply, -⟩⟩ := exec_c8_reply hb h
  · exact absurd (hb'.unique hc ▸ hsame) hchanged
  · obtain hkeeps | ⟨hcause, info, rfl⟩ := exec_c8_effect hb h hb'
    · exact absurd ((hkeeps .status).resolve_left (status_not_mem_c8Writes i)) hchanged
    · exact ⟨hreply, hcause, rfl⟩

/-- A GB instruction that leaves the session halted is a halt instruction or an unmatched sub-opcode: nothing but
`PC` and the status has changed. -/
theorem exec_gb_precise {g g' : GbBlock} (hg : GbReady s g) (hrun : g.status.run = .running)
    (h : exec i s = .next t) (hg' : GbReady t g') (hhalt : g'.status.run = .halted) :
    t.reply = .cycles 0 ∧ g'.status.haltCause ≠ .none ∧ g' = { g with pc := g'.pc, status := g'.status } := by
  refine ⟨?_, ?_⟩
  · rw [exec_gb_reply hg h, (exec_gb_halted_iff hg hrun h hg').2 hhalt]
  by_cases hwrites : .status ∈ gbWrites i
  · obtain rfl | rfl | ⟨sub, rfl, hsub⟩ := status_mem_gbWrites hwrites
    · obtain rfl := State.runGb_block hg h hg'
      exact ⟨by simp, rfl⟩
    · obtain rfl := State.runGb_block hg h hg'
      exact ⟨by simp, rfl⟩
    · obtain ⟨-, rfl⟩ | ⟨h40, -⟩ | ⟨h80, -⟩ := exec_gbPrefixCb_block hg h hg'
      · exact ⟨by simp, rfl⟩
      · omega
      · omega
  · have hsame : g'.status = g.status := (exec_gb_keeps hg h hg' .status).resolve_left hwrites
    simp [hsame, hrun] at hhalt

theorem tickC8_precise {b b' : C8Block} (hb : C8Ready s b) (hrun : b.status.run = .running)
    (h : tickC8 s = .next t) (hb' : C8Ready t b') (hhalt : b'.status.run = .halted) :
    t.reply = .cycles 0 ∧ b'.status.haltCause ≠ .none ∧ b' = { b with pc := b'.pc, status := b'.status } := by
  obtain ⟨c, hactive, hcases⟩ := tickC8_next h
  obtain rfl := hb.unique ⟨hb.1, hactive⟩
  obtain ⟨hhalted, -⟩ | ⟨-, -, rfl⟩ | ⟨-, -, -, rfl⟩ | ⟨k, -, -, -, -, hexec⟩ := hcases
  · cases hrun.symm.trans hhalted
  · obtain rfl := (hb.put _).unique hb'
    exact ⟨rfl, by simp [C8Block.readFault], rfl⟩
  · obtain rfl := (hb.put _).unique hb'
    exact ⟨rfl, by simp, rfl⟩
  · obtain ⟨hreply, hcause, hblock⟩ := exec_c8_precise (hb.put (c.dispatched c.opcode)) hrun hexec hb' hhalt
    exact ⟨hreply, hcause, by rw [hblock]; rfl⟩

theorem tickGb_precise {g g' : GbBlock} (hg : GbReady s g) (hrun : g.status.run = .running)
    (h : tickGb s = .next t) (hg' : GbReady t g') (hhalt : g'.status.run = .halted) :
    t.reply = .cycles 0 ∧ g'.status.haltCause ≠ .none ∧ g' = { g with pc := g'.pc, status := g'.status } := by
  obtain ⟨c, hactive, hcases⟩ := tickGb_next h
  obtain rfl := hg.unique ⟨hg.1, hactive⟩
  obtain ⟨hhalted, -⟩ | ⟨-, -, rfl⟩ | ⟨i, rest, -, -, -, hexec⟩ := hcases
  · cases hrun.symm.trans hhalted
  · obtain rfl := (hg.put _).unique hg'
    exact ⟨rfl, by simp, rfl⟩
  · have hprecise := exec_gb_precise (hg.put (c.dispatched c.opcode)) hrun hexec hg' hhalt
    exact hprecise

end Precise

/-- Settles O15: a Tick halts in the lookup or by its instruction, and neither writes another field first. -/
theorem haltsArePrecise : Obligations.HaltsArePrecise := by
  constructor
  · intro s t b b' htick hb hrun h hb' hhalt
    rw [step_tickC8 htick hb.1] at h
    exact tickC8_precise (c8Ready_taken hb) hrun h hb' hhalt
  · intro s t g g' htick hg hrun h hg' hhalt
    rw [step_tickGb htick hg.1] at h
    exact tickGb_precise (gbReady_taken hg) hrun h hg' hhalt

end Sys2Proof.Machine

namespace Sys2Proof.Machine

/-! # The halted state is terminal (60_exceptions R288) -/

/-! ## Blocks that stay live -/

theorem lookup_filter_key_ne {β : Type} (blocks : List (Nat × β)) (k id : Nat) :
    (blocks.filter fun c => c.1 != k).lookup id = if id = k then none else blocks.lookup id := by
  induction blocks with
  | nil => simp
  | cons c rest ih =>
    obtain ⟨key, b⟩ := c
    by_cases hkey : key = k
    · rw [List.filter_cons_of_neg (by simp [hkey]), ih]
      by_cases hid : id = k
      · rw [if_pos hid, if_pos hid]
      · have hne : (id == key) = false := beq_false_of_ne (hkey ▸ hid)
        rw [if_neg hid, if_neg hid, List.lookup_cons, hne]
    · rw [List.filter_cons_of_pos (by simpa using hkey), List.lookup_cons, ih, List.lookup_cons]
      by_cases hid : id = key
      · simp [hid, hkey]
      · simp [beq_false_of_ne hid]

/-- After a release the identity in `ctx` names no block, and every other one names the block it named (R314). -/
theorem Engine.lookup_quit {β : Type} (e : Engine β) (id : Nat) :
    e.quit.blocks.lookup id = if e.ctx = some id then none else e.blocks.lookup id := by
  unfold quit
  split
  · next hctx => simp [hctx]
  · next k hctx => simp [hctx, lookup_filter_key_ne, eq_comm]

/-- From `e` to `e'` no halted block that stays live has changed its status (10_state R13, R15). -/
def Engine.KeepsHalted {β : Type} (status : β → Status) (e e' : Engine β) : Prop :=
  ∀ id b b', e.blocks.lookup id = some b → (status b).run = .halted → e'.blocks.lookup id = some b' →
    status b' = status b

section KeepsHalted

variable {β : Type} {status : β → Status} {e e' : Engine β}

theorem Engine.keepsHalted_of_blocks (h : e'.blocks = e.blocks) : e.KeepsHalted status e' := by
  intro id b b' hb _ hb'
  rw [h, hb] at hb'
  cases hb'
  rfl

theorem Engine.keepsHalted_addBlock (fresh : β) : e.KeepsHalted status (e.addBlock fresh) := by
  intro id b b' hb _ hb'
  rw [addBlock_blocks, List.lookup_append, hb] at hb'
  cases hb'
  rfl

theorem Engine.keepsHalted_quit : e.KeepsHalted status e.quit := by
  intro id b b' hb _ hb'
  rw [lookup_quit, hb] at hb'
  split at hb' <;> cases hb'
  rfl

/-- The active block may be replaced while it runs, and otherwise by a block of the same status. -/
theorem Engine.keepsHalted_putActive {a a' : β} (ha : e.active = some a)
    (h : (status a).run = .halted → status a' = status a) : e.KeepsHalted status (e.putActive a') := by
  intro id b b' hb hhalt hb'
  rw [lookup_putActive, hb] at hb'
  split at hb'
  · next hctx =>
    have hactive : e.active = some b := by rw [active, hctx, Option.bind_some, hb]
    cases ha.symm.trans hactive
    cases hb'
    exact h hhalt
  · cases hb'
    rfl

/-- What a Tick may do to its core: nothing, or replace an active block that runs. -/
theorem Engine.keepsHalted_of_tick {a : β} (ha : e.active = some a)
    (h : e' = e ∨ ((status a).run = .running ∧ ∃ a', e' = e.putActive a')) : e.KeepsHalted status e' := by
  obtain rfl | ⟨hrun, a', rfl⟩ := h
  · exact keepsHalted_of_blocks rfl
  · exact keepsHalted_putActive ha fun hhalt => nomatch hrun.symm.trans hhalt

end KeepsHalted

/-! ## The host operations -/

/-- The same of both cores of a machine. -/
def State.KeepsHalted (s t : State) : Prop :=
  s.chip8.KeepsHalted C8Block.status t.chip8 ∧ s.gb.KeepsHalted GbBlock.status t.gb

theorem C8Block.load_status (b : C8Block) (image : Option (List Byte)) : (b.load image).1.status = b.status := by
  unfold C8Block.load
  split
  · rfl
  · split <;> rfl

theorem GbBlock.load_status (g : GbBlock) (image : Option (List Byte)) : (g.load image).1.status = g.status := by
  unfold GbBlock.load
  split
  · rfl
  · split <;> rfl

section Operations

variable {s t : State}

theorem State.KeepsHalted.of_chip8 (h : s.chip8.KeepsHalted C8Block.status t.chip8)
    (hgb : t.gb.blocks = s.gb.blocks) : s.KeepsHalted t := ⟨h, Engine.keepsHalted_of_blocks hgb⟩

theorem State.KeepsHalted.of_gb (h : s.gb.KeepsHalted GbBlock.status t.gb)
    (hchip8 : t.chip8.blocks = s.chip8.blocks) : s.KeepsHalted t := ⟨Engine.keepsHalted_of_blocks hchip8, h⟩

/-- A Tick finds the session halted and changes no block, or replaces a running block (R118, R121). -/
theorem tickC8_active (harch : s.arch = .chip8) (h : tickC8 s = .next t) :
    ∃ b, s.chip8.active = some b ∧ t.gb = s.gb ∧
      (t.chip8 = s.chip8 ∨ (b.status.run = .running ∧ ∃ b', t.chip8 = s.chip8.putActive b')) := by
  obtain ⟨b, hb, ⟨-, rfl⟩ | ⟨hrun, -, rfl⟩ | ⟨hrun, -, -, rfl⟩ | ⟨k, hrun, -, -, -, hexec⟩⟩ := tickC8_next h
  · exact ⟨b, hb, rfl, .inl rfl⟩
  · exact ⟨b, hb, rfl, .inr ⟨hrun, _, rfl⟩⟩
  · exact ⟨b, hb, rfl, .inr ⟨hrun, _, rfl⟩⟩
  · obtain ⟨-, _, b', _, _, -, rfl⟩ | ⟨-, g, -, -, hg, -⟩ := exec_next hexec
    · exact ⟨b, hb, rfl, .inr ⟨hrun, b', Engine.putActive_putActive ..⟩⟩
    · cases harch.symm.trans hg.1

theorem tickGb_active (harch : s.arch = .gb) (h : tickGb s = .next t) :
    ∃ g, s.gb.active = some g ∧ t.chip8 = s.chip8 ∧
      (t.gb = s.gb ∨ (g.status.run = .running ∧ ∃ g', t.gb = s.gb.putActive g')) := by
  obtain ⟨g, hg, ⟨-, rfl⟩ | ⟨hrun, -, rfl⟩ | ⟨i, rest, hrun, -, -, hexec⟩⟩ := tickGb_next h
  · exact ⟨g, hg, rfl, .inl rfl⟩
  · exact ⟨g, hg, rfl, .inr ⟨hrun, _, rfl⟩⟩
  · obtain ⟨-, b, -, -, -, hb, -⟩ | ⟨-, _, g', _, -, rfl⟩ := exec_next hexec
    · cases harch.symm.trans hb.1
    · exact ⟨g, hg, rfl, .inr ⟨hrun, g', Engine.putActive_putActive ..⟩⟩

theorem tick_keepsHalted (h : tick s = .next t) : s.KeepsHalted t := by
  unfold tick at h
  split at h
  · next harch =>
    obtain ⟨b, hb, hgb, hchip8⟩ := tickC8_active harch h
    exact .of_chip8 (Engine.keepsHalted_of_tick hb hchip8) (by rw [hgb])
  · next harch =>
    obtain ⟨g, hg, hchip8, hgb⟩ := tickGb_active harch h
    exact .of_gb (Engine.keepsHalted_of_tick hg hgb) (by rw [hchip8])

theorem startBlock_keepsHalted (s : State) : s.KeepsHalted (startBlock s) := by
  unfold startBlock
  split
  · exact .of_chip8 (Engine.keepsHalted_of_blocks rfl) rfl
  · split
    · exact .of_chip8 (Engine.keepsHalted_addBlock _) rfl
    · exact .of_gb (Engine.keepsHalted_addBlock _) rfl

theorem setContext_keepsHalted {id : Option Nat} (h : setContext s id = .next t) : s.KeepsHalted t := by
  unfold setContext at h
  split at h <;> split at h <;> cases h <;> exact .of_chip8 (Engine.keepsHalted_of_blocks rfl) rfl

theorem loadProgram_keepsHalted {image : Option (List Byte)} (h : loadProgram s image = .next t) :
    s.KeepsHalted t := by
  unfold loadProgram at h
  split at h <;> dsimp only at h <;> split at h <;> cases h
  · next b hb =>
    exact .of_chip8 (Engine.keepsHalted_putActive (e := s.chip8.build) hb fun _ => b.load_status image) rfl
  · next g hg =>
    exact .of_gb (Engine.keepsHalted_putActive (e := s.gb.build) hg fun _ => g.load_status image) rfl

theorem setKeyboardValue_keepsHalted {code : Nat} (h : setKeyboardValue s code = .next t) : s.KeepsHalted t := by
  unfold setKeyboardValue at h
  split at h <;> split at h <;> cases h
  · next hb => exact .of_chip8 (Engine.keepsHalted_putActive hb fun _ => rfl) rfl
  · next hg => exact .of_gb (Engine.keepsHalted_putActive hg fun _ => rfl) rfl

theorem quitProgram_keepsHalted (s : State) : s.KeepsHalted (quitProgram s) := by
  unfold quitProgram
  split
  · exact .of_chip8 Engine.keepsHalted_quit rfl
  · exact .of_gb Engine.keepsHalted_quit rfl

theorem timerTick_keepsHalted (h : timerTick s = .next t) : s.KeepsHalted t := by
  unfold timerTick at h
  split at h
  · split at h <;> cases h
    next hb => exact .of_chip8 (Engine.keepsHalted_putActive hb fun _ => rfl) rfl
  · cases h

theorem perform_keepsHalted {op : HostOp} (h : perform op s = .next t) : s.KeepsHalted t := by
  cases op with
  | initializeBlock => cases h; exact startBlock_keepsHalted s
  | setEmulationContext id => exact setContext_keepsHalted h
  | loadProgram image => exact loadProgram_keepsHalted h
  | tickEmulation => exact tick_keepsHalted h
  | setKeyboardValue code => exact setKeyboardValue_keepsHalted h
  | quitProgram => cases h; exact quitProgram_keepsHalted s
  | timerTick => exact timerTick_keepsHalted h

end Operations

/-- Settles O16: a Tick replaces a running block only, and the other operations write no status of a live block. -/
theorem haltIsTerminal : Obligations.HaltIsTerminal := by
  constructor
  · intro s t id b b' hb hhalt h hb'
    obtain ⟨hchip8, -⟩ := perform_keepsHalted (s := s.taken) h
    exact hchip8 id b b' hb hhalt hb'
  · intro s t id g g' hg hhalt h hg'
    obtain ⟨-, hgb⟩ := perform_keepsHalted (s := s.taken) h
    exact hgb id g g' hg hhalt hg'

end Sys2Proof.Machine

namespace Sys2Proof.Machine

/-! # The timers and the key latch (60_exceptions R292, R293, 70_reset_and_hazards R315) -/

theorem countDown_toNat (v : Byte) : (countDown v).toNat = v.toNat - 1 := by
  unfold countDown
  split
  · next hzero => rw [hzero]; rfl
  · bv_omega

/-- The block after the key latch is written (R315). -/
def C8Block.latched (b : C8Block) (code : Nat) : C8Block := { b with key := BitVec.ofNat 8 code }

/-- The block after the key latch is written (R315). -/
def GbBlock.latched (g : GbBlock) (code : Nat) : GbBlock := { g with key := BitVec.ofNat 8 code }

theorem C8Block.frame_timerTick (b : C8Block) : C8Frame [.dt, .st] b b.timerTick := by
  intro k hk
  cases k <;> simp_all [C8Field.same, C8Block.timerTick]

theorem C8Block.frame_latched (b : C8Block) (code : Nat) : C8Frame [.key] b (b.latched code) := by
  intro k hk
  cases k <;> simp_all [C8Field.same, C8Block.latched]

theorem GbKeeps.latched (g : GbBlock) (code : Nat) : GbKeeps [.key] g (g.latched code) := by
  intro k
  cases k <;> simp [GbField.Kept, GbField.same, GbBlock.latched]

section HostEvents

variable {s : State}

theorem perform_timerTick {b : C8Block} (hb : C8Ready s b) :
    perform .timerTick s = .next ((s.putC8 b.timerTick).answer .unit) := by
  simp only [perform, timerTick, hb.1, hb.2]

theorem perform_setKeyboardValue_c8 {b : C8Block} (hb : C8Ready s b) (code : Nat) :
    perform (.setKeyboardValue code) s = .next ((s.putC8 (b.latched code)).answer .unit) := by
  simp only [perform, setKeyboardValue, hb.1, hb.2, C8Block.latched]

theorem perform_setKeyboardValue_gb {g : GbBlock} (hg : GbReady s g) (code : Nat) :
    perform (.setKeyboardValue code) s = .next ((s.putGb (g.latched code)).answer .unit) := by
  simp only [perform, setKeyboardValue, hg.1, hg.2, GbBlock.latched]

end HostEvents

/-- Settles O56: neither operation asks whether the block runs. -/
theorem timersAndKeyLatch : Obligations.TimersAndKeyLatch := by
  refine ⟨fun s b hop hb => ?timer, fun s b code hop hb => ?keyC8, fun s g code hop hg => ?keyGb⟩
  case timer =>
    have hb := c8Ready_taken hb
    rw [step_eq, hop, perform_timerTick hb]
    exact ⟨_, b.timerTick, rfl, State.done_putC8 _ _ hb.2, b.frame_timerTick, countDown_toNat b.dt,
      countDown_toNat b.st⟩
  case keyC8 =>
    have hb := c8Ready_taken hb
    rw [step_eq, hop, perform_setKeyboardValue_c8 hb]
    exact ⟨_, b.latched code, rfl, State.done_putC8 _ _ hb.2, b.frame_latched code, BitVec.toNat_ofNat code 8⟩
  case keyGb =>
    have hg := gbReady_taken hg
    rw [step_eq, hop, perform_setKeyboardValue_gb hg]
    exact ⟨_, g.latched code, rfl, State.done_putGb _ _ hg.2, (GbKeeps.latched g code).frame,
      BitVec.toNat_ofNat code 8⟩

end Sys2Proof.Machine

namespace Sys2Proof.Machine

/-! # The context operations (70_reset_and_hazards R313, R314) -/

section Context

variable {β : Type}

/-- `SetEmulationContext` has a meaning for `none` and for every live block (R313). -/
theorem Engine.accepts_iff (e : Engine β) (id : Option Nat) :
    e.accepts id = true ↔ ∀ k, id = some k → e.blocks.lookup k ≠ none := by
  cases id with
  | none => simp [accepts]
  | some k => simp [accepts, live, Option.isSome_iff_ne_none]

@[simp] theorem Engine.quit_ctx (e : Engine β) : e.quit.ctx = none := by
  unfold quit
  split
  · next hnone => exact hnone
  · rfl

@[simp] theorem Engine.quit_tableBuilt (e : Engine β) : e.quit.tableBuilt = e.tableBuilt := by
  unfold quit
  split <;> rfl

@[simp] theorem Engine.quit_nextId (e : Engine β) : e.quit.nextId = e.nextId := by
  unfold quit
  split <;> rfl

variable {s : State}

theorem perform_setEmulationContext_c8 (harch : s.arch = .chip8) (id : Option Nat) :
    perform (.setEmulationContext id) s =
      if s.chip8.accepts id then .next { s with chip8 := { s.chip8 with ctx := id }, reply := .unit }
      else .refused .badContext := by
  simp only [perform, setContext, harch, State.answer]

theorem perform_setEmulationContext_gb (harch : s.arch = .gb) (id : Option Nat) :
    perform (.setEmulationContext id) s =
      if s.gb.accepts id then .next { s with gb := { s.gb with ctx := id }, reply := .unit }
      else .refused .badContext := by
  simp only [perform, setContext, harch, State.answer]

theorem perform_quitProgram_c8 (harch : s.arch = .chip8) :
    perform .quitProgram s = .next { s with chip8 := s.chip8.quit, reply := .unit } := by
  simp only [perform, quitProgram, harch, State.answer]

theorem perform_quitProgram_gb (harch : s.arch = .gb) :
    perform .quitProgram s = .next { s with gb := s.gb.quit, reply := .unit } := by
  simp only [perform, quitProgram, harch, State.answer]

end Context

/-- Settles O59: a core accepts `none` and the live blocks, and a release removes the block `ctx` names. -/
theorem contextOperations : Obligations.ContextOperations := by
  refine ⟨fun s id hop harch => ?setC8, fun s id hop harch => ?setGb, fun s hop harch => ?quitC8,
    fun s hop harch => ?quitGb⟩
  case setC8 =>
    rw [step_eq, hop, perform_setEmulationContext_c8 (s := s.taken) harch]
    exact ⟨fun hlive => if_pos ((Engine.accepts_iff ..).2 hlive),
      fun k hid hnone => if_neg fun haccepts => (Engine.accepts_iff ..).1 haccepts k hid hnone⟩
  case setGb =>
    rw [step_eq, hop, perform_setEmulationContext_gb (s := s.taken) harch]
    exact ⟨fun hlive => if_pos ((Engine.accepts_iff ..).2 hlive),
      fun k hid hnone => if_neg fun haccepts => (Engine.accepts_iff ..).1 haccepts k hid hnone⟩
  case quitC8 =>
    rw [step_eq, hop, perform_quitProgram_c8 (s := s.taken) harch]
    exact ⟨_, rfl, rfl, Engine.quit_ctx _, Engine.quit_tableBuilt _, Engine.quit_nextId _, Engine.lookup_quit _⟩
  case quitGb =>
    rw [step_eq, hop, perform_quitProgram_gb (s := s.taken) harch]
    exact ⟨_, rfl, rfl, Engine.quit_ctx _, Engine.quit_tableBuilt _, Engine.quit_nextId _, Engine.lookup_quit _⟩

end Sys2Proof.Machine

namespace Sys2Proof.Machine

/-! # A new block (70_reset_and_hazards R310) -/

section Initialize

variable {β : Type} {good : β → Prop} {e : Engine β}

/-- In a good core the next identity names no live block: those in use are below it (log 7). -/
theorem Engine.Good.lookup_nextId (h : e.Good good) : e.blocks.lookup e.nextId = none := by
  obtain ⟨hblocks, -, -⟩ := h
  refine List.lookup_eq_none_iff.2 fun c hc => ?_
  have hlt : c.1 < e.nextId := (hblocks c hc).2
  simpa using hlt.ne'

/-- Under the next identity a new block is found, and under every other one what was found before. -/
theorem Engine.Good.lookup_addBlock (h : e.Good good) (fresh : β) (id : Nat) :
    (e.addBlock fresh).blocks.lookup id = if id = e.nextId then some fresh else e.blocks.lookup id := by
  rw [addBlock_blocks, List.lookup_append]
  by_cases hid : id = e.nextId
  · subst hid
    simp [h.lookup_nextId]
  · simp [hid, List.lookup_cons, beq_false_of_ne hid]

variable {s : State}

theorem startBlock_of_fails (hfails : Config.allocationFails s.allocs = true) :
    startBlock s = { s with allocs := s.allocs + 1, reply := .allocationFailed } := by
  simp only [startBlock, hfails, if_true, State.answer]

theorem startBlock_c8 (hallocated : ¬ Config.allocationFails s.allocs = true) (harch : s.arch = .chip8) :
    startBlock s = { s with
      chip8 := s.chip8.addBlock .reset, allocs := s.allocs + 1, reply := .initialized s.chip8.nextId } := by
  simp [startBlock, hallocated, harch, State.answer]

theorem startBlock_gb (hallocated : ¬ Config.allocationFails s.allocs = true) (harch : s.arch = .gb) :
    startBlock s = { s with
      gb := s.gb.addBlock (.resetWith s.gbParams.reset), allocs := s.allocs + 1,
      reply := .initialized s.gb.nextId } := by
  simp [startBlock, hallocated, harch, State.answer]

end Initialize

/-- Settles O58: the allocation fails, or the core that is built for gets a block under its next identity. -/
theorem newBlock : Obligations.NewBlock := by
  intro s hgood hop
  obtain ⟨hchip8, hgb, -⟩ := hgood
  refine ⟨startBlock s.taken, by rw [step_eq, hop]; rfl, ?_⟩
  by_cases hfails : Config.allocationFails s.taken.allocs = true
  · rw [startBlock_of_fails hfails]
    exact ⟨rfl, .inl ⟨rfl, rfl, rfl⟩⟩
  · cases harch : s.arch with
    | chip8 =>
      rw [startBlock_c8 hfails harch]
      have hlookup := hchip8.lookup_addBlock .reset
      exact ⟨rfl, .inr ⟨s.chip8.nextId, rfl, fun _ => ⟨rfl, hchip8.lookup_nextId,
        (hlookup _).trans (if_pos rfl), rfl, rfl, fun k hk => (hlookup k).trans (if_neg hk)⟩, nofun⟩⟩
    | gb =>
      rw [startBlock_gb hfails harch]
      have hlookup := hgb.lookup_addBlock (.resetWith s.gbParams.reset)
      exact ⟨rfl, .inr ⟨s.gb.nextId, rfl, nofun, fun _ => ⟨rfl, hgb.lookup_nextId,
        (hlookup _).trans (if_pos rfl), rfl, rfl, fun k hk => (hlookup k).trans (if_neg hk)⟩⟩⟩

end Sys2Proof.Machine

namespace Sys2Proof.Machine

/-! # Loading a program (70_reset_and_hazards R316) -/

/-- What is read after bytes are stored: the bytes over the addresses they take, and memory elsewhere. -/
theorem Memory.read_writeBytes_eq_dite (m : Memory) (base : Nat) (bytes : List Byte) (a : Nat) :
    (m.writeBytes base bytes).read a =
      if h : base ≤ a ∧ a < base + bytes.length then bytes[a - base]'(by omega) else m.read a := by
  rw [read_writeBytes]
  by_cases hbase : base ≤ a
  · by_cases hlt : a - base < bytes.length
    · have hin : base ≤ a ∧ a < base + bytes.length := by omega
      rw [if_pos hbase, dif_pos hin, List.getElem?_eq_getElem hlt, Option.getD_some]
    · have hout : ¬ (base ≤ a ∧ a < base + bytes.length) := by omega
      rw [if_pos hbase, dif_neg hout, List.getElem?_eq_none (Nat.le_of_not_lt hlt), Option.getD_none]
  · rw [if_neg hbase, dif_neg fun hin => hbase hin.1]

theorem Memory.read_writeBytes_zero (m : Memory) (bytes : List Byte) (a : Nat) :
    (m.writeBytes 0 bytes).read a = if h : a < bytes.length then bytes[a]'h else m.read a := by
  rw [read_writeBytes_eq_dite]
  simp

section Load

variable {bytes : List Byte}

/-! ## CHIP-8 blocks -/

/-- The block after a load that fits: the font, and over it the image (R316). -/
def C8Block.withProgram (b : C8Block) (bytes : List Byte) : C8Block :=
  { b with mem := (b.mem.writeBytes 0 c8Font).writeBytes 0x200 bytes }

theorem C8Block.load_none (b : C8Block) : b.load none = (b, 0) := rfl

theorem C8Block.load_of_oversized (b : C8Block) (h : 0x200 + bytes.length > 4096) :
    b.load (some bytes) = (b, 0) := if_pos h

theorem C8Block.load_of_fits (b : C8Block) (h : 0x200 + bytes.length ≤ 4096) :
    b.load (some bytes) = (b.withProgram bytes, bytes.length) := if_neg (Nat.not_lt.2 h)

theorem C8Block.withProgram_read (b : C8Block) (a : Nat) :
    (b.withProgram bytes).mem.read a =
      if h : 0x200 ≤ a ∧ a < 0x200 + bytes.length then bytes[a - 0x200]'(by omega)
      else if h : a < 80 then c8Font[a]'h else b.mem.read a := by
  rw [withProgram, Memory.read_writeBytes_eq_dite, Memory.read_writeBytes_zero]
  rfl

theorem C8Keeps.setMem (b : C8Block) (m : Memory) : C8Keeps [.mem] b { b with mem := m } := by
  intro k
  cases k <;> simp [C8Field.Kept, C8Field.same]

/-- Memory is the one field a load writes, whether the image is absent, oversized or copied (R316). -/
theorem C8Keeps.load (b : C8Block) (image : Option (List Byte)) : C8Keeps [.mem] b (b.load image).1 := by
  unfold C8Block.load
  split
  · exact setMem b b.mem
  · split
    · exact setMem b b.mem
    · exact setMem b _

/-! ## GB blocks -/

/-- The block after a load that fits (R316). -/
def GbBlock.withProgram (g : GbBlock) (bytes : List Byte) : GbBlock :=
  { g with mem := g.mem.writeBytes 0 bytes }

theorem GbBlock.load_none (g : GbBlock) : g.load none = (g, 0) := rfl

theorem GbBlock.load_of_oversized (g : GbBlock) (h : bytes.length > 65536) : g.load (some bytes) = (g, 0) :=
  if_pos ((Nat.zero_add _).symm ▸ h)

theorem GbBlock.load_of_fits (g : GbBlock) (h : bytes.length ≤ 65536) :
    g.load (some bytes) = (g.withProgram bytes, bytes.length) :=
  if_neg (Nat.not_lt.2 ((Nat.zero_add _).symm ▸ h))

theorem GbBlock.withProgram_read (g : GbBlock) (a : Nat) :
    (g.withProgram bytes).mem.read a = if h : a < bytes.length then bytes[a]'h else g.mem.read a :=
  Memory.read_writeBytes_zero g.mem bytes a

theorem GbKeeps.setMem (g : GbBlock) (m : Memory) : GbKeeps [.mem] g { g with mem := m } := by
  intro k
  cases k <;> simp [GbField.Kept, GbField.same]

/-- Memory is the one field a load writes, whether the image is absent, oversized or copied (R316). -/
theorem GbKeeps.load (g : GbBlock) (image : Option (List Byte)) : GbKeeps [.mem] g (g.load image).1 := by
  unfold GbBlock.load
  split
  · exact setMem g g.mem
  · split
    · exact setMem g g.mem
    · exact setMem g _

/-! ## The machine -/

variable {s : State} {b : C8Block} {g : GbBlock}

theorem perform_loadProgram_c8 (hb : C8Ready s b) (image : Option (List Byte)) :
    perform (.loadProgram image) s =
      .next (({ s with chip8 := s.chip8.build }.putC8 (b.load image).1).answer (.bytesLoaded (b.load image).2)) := by
  simp only [perform, loadProgram, hb.1, hb.2]

theorem perform_loadProgram_gb (hg : GbReady s g) (image : Option (List Byte)) :
    perform (.loadProgram image) s =
      .next (({ s with gb := s.gb.build }.putGb (g.load image).1).answer (.bytesLoaded (g.load image).2)) := by
  simp only [perform, loadProgram, hg.1, hg.2]

end Load

/-- Settles O57: the block that is put back, and the count returned, are those of the block's load. -/
theorem programLoad : Obligations.ProgramLoad := by
  refine ⟨rfl, fun s b image hop hb => ?c8, fun s g image hop hg => ?gb⟩
  case c8 =>
    have hb := c8Ready_taken hb
    rw [step_eq, hop, perform_loadProgram_c8 hb]
    refine ⟨_, (b.load image).1, (b.load image).2, rfl, State.done_putC8 _ _ hb.2, (C8Keeps.load b image).frame,
      ?absent, fun bytes himage => ⟨fun hover => ?oversized, fun hfits => ?fits⟩⟩
    case absent =>
      rintro rfl
      exact ⟨rfl, rfl⟩
    case oversized =>
      rw [himage, b.load_of_oversized hover]
      exact ⟨rfl, rfl⟩
    case fits =>
      rw [himage, b.load_of_fits hfits]
      exact ⟨rfl, b.withProgram_read⟩
  case gb =>
    have hg := gbReady_taken hg
    rw [step_eq, hop, perform_loadProgram_gb hg]
    refine ⟨_, (g.load image).1, (g.load image).2, rfl, State.done_putGb _ _ hg.2, (GbKeeps.load g image).frame,
      ?absent, fun bytes himage => ⟨fun hover => ?oversized, fun hfits => ?fits⟩⟩
    case absent =>
      rintro rfl
      exact ⟨rfl, rfl⟩
    case oversized =>
      rw [himage, g.load_of_oversized hover]
      exact ⟨rfl, rfl⟩
    case fits =>
      rw [himage, g.load_of_fits hfits]
      exact ⟨rfl, g.withProgram_read⟩

end Sys2Proof.Machine
